-- ==== Sys2Proof/Word.lean ====
section
/-! DEFINITION. Word.lean: the word types of the block and the one record of bytes it uses.

Widths are the spec's (spec/10_state.md rule R20, spec/30_encoding.md rule R90). Nothing here is arithmetic that
a repair could want to change. -/

namespace Sys2Proof

/-- The block's unit of storage and of every access (R72, R73). -/
abbrev Byte := BitVec 8

/-- A VRAM address as a data transaction presents it: 16 bits, all kept (R44, R60). -/
abbrev VramAddr := BitVec 16

/-- A transaction word (R90). -/
abbrev TWord := BitVec 20

/-- A count of host cycles: `cy` and the operand of STEP (R50, R94). -/
abbrev Cycles := BitVec 64

/-- One pixel of the frame buffer, or one entry of the palette table (R7, R218). -/
structure Rgb where
  /-- red, the first byte of the pixel -/
  r : Byte
  /-- green, the second byte -/
  g : Byte
  /-- blue, the third byte -/
  b : Byte
deriving DecidableEq, Repr, Inhabited

end Sys2Proof
end

