-- ==== Sys2Proof/Config.lean ====
section
/-! DEFINITION. Config.lean: what is fixed when the block is constructed (spec/00_scope.md rules R6 and R7,
spec/70_reset_and_hazards.md rule R291).

The spec leaves five parameters open. Q, V, N and the palette table are fixed at construction and stand in
`Params`; the pattern source may change between transactions (R71), so it comes with each transaction
(Machine/State.lean, log entry 6). -/

namespace Sys2Proof

/-- The parameters of R7 that are fixed for a constructed block, with the constraints R7 puts on them. No value
that breaks a constraint can be built, so no statement speaks of a block the spec does not admit. -/
structure Params where
  /-- `P_CYCLES_PER_SCANLINE` (Q): host cycles of one scanline -/
  q : Nat
  /-- `P_VBLANK_SCANLINE` (V): the scanline whose entry sets vblank -/
  v : Nat
  /-- `P_FRAME_END_SCANLINE` (N): the scanline whose entry completes the frame -/
  n : Nat
  /-- `P_PALETTE_RGB`: the table from a 6-bit colour index to its RGB triple -/
  paletteRgb : List Rgb
  /-- "any integer ≥ 1 admitted" (R7) -/
  q_pos : 1 ≤ q
  /-- "constraint 240 ≤ V < N" (R7), the first half -/
  v_low : 240 ≤ v
  /-- "constraint 240 ≤ V < N" (R7), the second half -/
  v_high : v < n
  /-- 262, "261 admitted as the alternative of D19" (R7) -/
  n_ok : n = 261 ∨ n = 262
  /-- "The 64-entry table" (R7) -/
  palette_len : paletteRgb.length = 64
deriving DecidableEq, Repr

namespace Config

/-- The palette table of a block constructed with the default parameters. The spec gives no entry of
`P_PALETTE_RGB` (R7, D16: OPEN), so this constant has no body: nothing in Lean can evaluate it (log entry 7). -/
opaque paletteRgb : BitVec 6 → Rgb

/-- `paletteRgb` as the 64-entry list `Params` holds. -/
def paletteTable : List Rgb := (List.range 64).map fun i => paletteRgb (BitVec.ofNat 6 i)

/-- The default parameters of R7: Q = 114, V = 241, N = 262 (log entry 8), and the open palette table. -/
def default : Params where
  q := 114
  v := 241
  n := 262
  paletteRgb := paletteTable
  q_pos := by decide
  v_low := by decide
  v_high := by decide
  n_ok := by decide
  palette_len := by simp [paletteTable]

/-- Columns of the frame (R6). -/
abbrev columns : Nat := 256

/-- Rows of the frame, and so the number of visible scanlines (R6, R242). -/
abbrev rows : Nat := 240

/-- Bytes of `nametable_ram` (R51). -/
abbrev nametableSize : Nat := 2048

/-- Cells of `palette_ram` (R52). -/
abbrev paletteSize : Nat := 32

/-- Bytes of `oam` (R53). -/
abbrev oamSize : Nat := 256

/-- Sprite records in `oam` (R53). -/
abbrev slots : Nat := 64

/-- Sprites selected for one scanline at most (R6, R182). -/
abbrev spritesPerLine : Nat := 8

/-- Bytes of `frame` (R54): 256 × 240 pixels of three bytes. -/
abbrev frameSize : Nat := 184320

end Config

end Sys2Proof
end

