-- ==== Sys2Proof/Syntax.lean ====
section
/-! DEFINITION. Syntax.lean: the block's transactions, its "instructions" (spec/30_encoding.md).

One constructor per row of spec/opcode_table.json. A constructor carries the operands R94 gives the transaction;
the bits a row ignores (`a[7:3]` of the register window, `d` of a load) are no operand and are not here
(log entry 12). -/

namespace Sys2Proof

/-- The twenty transactions of R91, R92 and R93. -/
inductive Instr where
  /-- `W.CTRL d` -/
  | wCtrl (d : Byte)
  /-- `W.MASK d` -/
  | wMask (d : Byte)
  /-- `W.STATUS d` -/
  | wStatus (d : Byte)
  /-- `W.OAMADDR d` -/
  | wOamaddr (d : Byte)
  /-- `W.OAMDATA d` -/
  | wOamdata (d : Byte)
  /-- `W.SCROLL d` -/
  | wScroll (d : Byte)
  /-- `W.ADDR d` -/
  | wAddr (d : Byte)
  /-- `W.DATA d` -/
  | wData (d : Byte)
  /-- `R.CTRL` -/
  | rCtrl
  /-- `R.MASK` -/
  | rMask
  /-- `R.STATUS` -/
  | rStatus
  /-- `R.OAMADDR` -/
  | rOamaddr
  /-- `R.OAMDATA` -/
  | rOamdata
  /-- `R.SCROLL` -/
  | rScroll
  /-- `R.ADDR` -/
  | rAddr
  /-- `R.DATA` -/
  | rData
  /-- `OAM.W a, d` -/
  | oamW (a d : Byte)
  /-- `OAM.R a` -/
  | oamR (a : Byte)
  /-- `STEP target` -/
  | step (target : Cycles)
  /-- `FRAME` -/
  | frame
deriving DecidableEq, Repr

namespace Instr

/-- The row's mnemonic in spec/opcode_table.json (R98). -/
def mnemonic : Instr → String
  | wCtrl _ => "W.CTRL"
  | wMask _ => "W.MASK"
  | wStatus _ => "W.STATUS"
  | wOamaddr _ => "W.OAMADDR"
  | wOamdata _ => "W.OAMDATA"
  | wScroll _ => "W.SCROLL"
  | wAddr _ => "W.ADDR"
  | wData _ => "W.DATA"
  | rCtrl => "R.CTRL"
  | rMask => "R.MASK"
  | rStatus => "R.STATUS"
  | rOamaddr => "R.OAMADDR"
  | rOamdata => "R.OAMDATA"
  | rScroll => "R.SCROLL"
  | rAddr => "R.ADDR"
  | rData => "R.DATA"
  | oamW _ _ => "OAM.W"
  | oamR _ => "OAM.R"
  | step _ => "STEP"
  | frame => "FRAME"

/-- A number in the hexadecimal form of R98. -/
def hex (n : Nat) : String := "0x" ++ String.ofList (Nat.toDigits 16 n)

/-- The operands of R98, as text. -/
def operandText : Instr → String
  | wCtrl d | wMask d | wStatus d | wOamaddr d | wOamdata d | wScroll d | wAddr d | wData d => " " ++ hex d.toNat
  | oamW a d => " " ++ hex a.toNat ++ ", " ++ hex d.toNat
  | oamR a => " " ++ hex a.toNat
  | step t => " " ++ toString t.toNat
  | rCtrl | rMask | rStatus | rOamaddr | rOamdata | rScroll | rAddr | rData | frame => ""

/-- The line R98 writes for the transaction. -/
def text (i : Instr) : String := i.mnemonic ++ i.operandText

/-- The register-window transactions: port 0b00 (R91). -/
def isRegister : Instr → Bool
  | wCtrl _ | wMask _ | wStatus _ | wOamaddr _ | wOamdata _ | wScroll _ | wAddr _ | wData _ => true
  | rCtrl | rMask | rStatus | rOamaddr | rOamdata | rScroll | rAddr | rData => true
  | oamW _ _ | oamR _ | step _ | frame => false

/-- The transactions of spec/41_external_ports.md: the OAM port and the frame read. -/
def isExternalPort : Instr → Bool
  | oamW _ _ | oamR _ | frame => true
  | wCtrl _ | wMask _ | wStatus _ | wOamaddr _ | wOamdata _ | wScroll _ | wAddr _ | wData _ => false
  | rCtrl | rMask | rStatus | rOamaddr | rOamdata | rScroll | rAddr | rData | step _ => false

end Instr

/-- The pseudo-transactions of R99. -/
inductive Pseudo where
  /-- `SETADDR v16` -/
  | setAddr (v : VramAddr)
  /-- `SETSCROLL x, y` -/
  | setScroll (x y : Byte)
  /-- `VPOKE v16, b0, b1, ...` -/
  | vpoke (v : VramAddr) (bytes : List Byte)
  /-- `SPRITE s, y, t, at, x` -/
  | sprite (slot : Nat) (y tile attr x : Byte)
  /-- `DMA page` -/
  | dma (page : List Byte)
deriving DecidableEq, Repr

namespace Pseudo

/-- `OAM.W a, page[0]`; `OAM.W a+1, page[1]`; ... -/
def dmaFrom : Nat → List Byte → List Instr
  | _, [] => []
  | a, b :: rest => .oamW (BitVec.ofNat 8 a) b :: dmaFrom (a + 1) rest

/-- The sequence a pseudo-transaction abbreviates, "and nothing more" (R99). -/
def expand : Pseudo → List Instr
  | setAddr v => [.rStatus, .wAddr (v.extractLsb' 8 8), .wAddr (v.extractLsb' 0 8)]
  | setScroll x y => [.rStatus, .wScroll x, .wScroll y]
  | vpoke v bytes => [.rStatus, .wAddr (v.extractLsb' 8 8), .wAddr (v.extractLsb' 0 8)] ++ bytes.map .wData
  | sprite slot y tile attr x =>
    [.wOamaddr (BitVec.ofNat 8 (4 * slot)), .wOamdata y, .wOamdata tile, .wOamdata attr, .wOamdata x]
  | dma page => dmaFrom 0 page

end Pseudo

end Sys2Proof
end

