-- ==== Sys2Proof/WellFormed.lean ====
section
/-! DEFINITION. WellFormed.lean: what an instruction must satisfy beyond its type.

A transaction needs no check: within the register window and the OAM port "every combination of `a` and `d` is a
valid transaction" (R95), STEP takes any unsigned 64-bit target (R94), and the types hold exactly those values.
The checks that remain are those R99 puts on a pseudo-transaction. -/

namespace Sys2Proof

/-- Every `Instr` is well-formed: its operands are bit vectors of the widths R94 gives and any value is legal. -/
def Instr.wellFormed : Instr → Bool
  | .wCtrl _ | .wMask _ | .wStatus _ | .wOamaddr _ | .wOamdata _ | .wScroll _ | .wAddr _ | .wData _ => true
  | .rCtrl | .rMask | .rStatus | .rOamaddr | .rOamdata | .rScroll | .rAddr | .rData => true
  | .oamW _ _ | .oamR _ | .step _ | .frame => true

/-- The checks of R99: "for slot s in 0..63" and "for a 256-byte page"; VPOKE names at least one byte, `b0`. -/
def Pseudo.wellFormed : Pseudo → Bool
  | .setAddr _ => true
  | .setScroll _ _ => true
  | .vpoke _ bytes => !bytes.isEmpty
  | .sprite slot _ _ _ _ => decide (slot < Config.slots)
  | .dma page => page.length == Config.oamSize

end Sys2Proof
end

