-- ==== Sys2Proof/Decode.lean ====
section
/-! DEFINITION. Decode.lean: the transaction word, its decoder and its encoder (spec/30_encoding.md).

The decoder is total on every 20-bit word: it answers one of the twenty transactions or names why the word is
reserved (R95, R97). The encoder is written from the same table, R90 to R93. -/

namespace Sys2Proof

/-- Why a word names no transaction: the three reserved groups of R95. -/
inductive DecodeError where
  /-- "every word with `z` = 1" -/
  | zBit
  /-- "every word with `port` = 0b11" -/
  | portReserved
  /-- "every control-port word other than the two of rule R93" -/
  | controlReserved
deriving DecidableEq, Repr

/-! ### The fields of R90 -/

/-- bits 19:18 -/
def portField (w : TWord) : BitVec 2 := w.extractLsb' 18 2

/-- bit 17 -/
def rwField (w : TWord) : BitVec 1 := w.extractLsb' 17 1

/-- bit 16 -/
def zField (w : TWord) : BitVec 1 := w.extractLsb' 16 1

/-- bits 15:8 -/
def aField (w : TWord) : Byte := w.extractLsb' 8 8

/-- bits 7:0 -/
def dField (w : TWord) : Byte := w.extractLsb' 0 8

/-- "`idx = a & 7` of the address the host presents" (R70, R110): `a[2:0]`. -/
def regIndex (a : Byte) : BitVec 3 := a.extractLsb' 0 3

/-! ### The decoder -/

/-- The store rows of R91. -/
def storeOf (idx : BitVec 3) (d : Byte) : Instr :=
  match idx with
  | 0#3 => .wCtrl d
  | 1#3 => .wMask d
  | 2#3 => .wStatus d
  | 3#3 => .wOamaddr d
  | 4#3 => .wOamdata d
  | 5#3 => .wScroll d
  | 6#3 => .wAddr d
  | 7#3 => .wData d

/-- The load rows of R91. -/
def loadOf (idx : BitVec 3) : Instr :=
  match idx with
  | 0#3 => .rCtrl
  | 1#3 => .rMask
  | 2#3 => .rStatus
  | 3#3 => .rOamaddr
  | 4#3 => .rOamdata
  | 5#3 => .rScroll
  | 6#3 => .rAddr
  | 7#3 => .rData

/-- R97: "A decoder tests `z`, then `port`". `target` is the operand that comes with the word; only STEP has it. -/
def decode (w : TWord) (target : Cycles) : Except DecodeError Instr :=
  if zField w = 1#1 then .error .zBit
  else match portField w with
    | 0#2 => .ok (if rwField w = 0#1 then storeOf (regIndex (aField w)) (dField w) else loadOf (regIndex (aField w)))
    | 1#2 => .ok (if rwField w = 0#1 then .oamW (aField w) (dField w) else .oamR (aField w))
    | 2#2 =>
      if aField w = 0#8 ∧ dField w = 0#8 then .ok (if rwField w = 0#1 then .step target else .frame)
      else .error .controlReserved
    | 3#2 => .error .portReserved

/-! ### The encoder -/

/-- A register-window word: `port` 0b00, `z` 0, `aHigh` above the index in `a` (R91). -/
def regWord (rw : BitVec 1) (idx : BitVec 3) (aHigh : BitVec 5) (d : Byte) : TWord :=
  0#2 ++ rw ++ 0#1 ++ aHigh ++ idx ++ d

/-- An OAM-port word: `port` 0b01 (R92). -/
def oamWord (rw : BitVec 1) (a d : Byte) : TWord := 1#2 ++ rw ++ 0#1 ++ a ++ d

/-- A control-port word: `port` 0b10, `a` and `d` zero (R93). -/
def controlWord (rw : BitVec 1) : TWord := 2#2 ++ rw ++ 0#1 ++ 0#8 ++ 0#8

/-- The word of a transaction with the bits its row ignores set to `aHigh` (`a[7:3]` of the register window: the
`@aa` of R98) and `dLow` (`d` of a load). -/
def encodeWith (aHigh : BitVec 5) (dLow : Byte) : Instr → TWord
  | .wCtrl d => regWord 0 0 aHigh d
  | .wMask d => regWord 0 1 aHigh d
  | .wStatus d => regWord 0 2 aHigh d
  | .wOamaddr d => regWord 0 3 aHigh d
  | .wOamdata d => regWord 0 4 aHigh d
  | .wScroll d => regWord 0 5 aHigh d
  | .wAddr d => regWord 0 6 aHigh d
  | .wData d => regWord 0 7 aHigh d
  | .rCtrl => regWord 1 0 aHigh dLow
  | .rMask => regWord 1 1 aHigh dLow
  | .rStatus => regWord 1 2 aHigh dLow
  | .rOamaddr => regWord 1 3 aHigh dLow
  | .rOamdata => regWord 1 4 aHigh dLow
  | .rScroll => regWord 1 5 aHigh dLow
  | .rAddr => regWord 1 6 aHigh dLow
  | .rData => regWord 1 7 aHigh dLow
  | .oamW a d => oamWord 0 a d
  | .oamR a => oamWord 1 a dLow
  | .step _ => controlWord 0
  | .frame => controlWord 1

/-- The word of a transaction as R98 writes it without `@aa`: "default `a = idx`", and `d` zero where it is
ignored (section 7 of spec/30_encoding.md). -/
def encodeWord (i : Instr) : TWord := encodeWith 0 0 i

/-- The 64-bit operand that goes with the word; zero for a transaction that has none (R90, R94). -/
def encodeTarget : Instr → Cycles
  | .step t => t
  | .wCtrl _ | .wMask _ | .wStatus _ | .wOamaddr _ | .wOamdata _ | .wScroll _ | .wAddr _ | .wData _ => 0
  | .rCtrl | .rMask | .rStatus | .rOamaddr | .rOamdata | .rScroll | .rAddr | .rData => 0
  | .oamW _ _ | .oamR _ | .frame => 0

/-- The words of an instruction: its transaction word and its operand. -/
def encode (i : Instr) : TWord × Cycles := (encodeWord i, encodeTarget i)

/-! ### The opcode table -/

/-- A row of spec/opcode_table.json: a word `w` is the row's when `w & care = value`. -/
structure OpcodeRow where
  mnemonic : String
  value : TWord
  care : TWord
deriving DecidableEq, Repr

/-- The register-window rows of spec/opcode_table.json. -/
def registerRows : List OpcodeRow :=
  [⟨"W.CTRL", 0x00000, 0xF0700⟩, ⟨"W.MASK", 0x00100, 0xF0700⟩, ⟨"W.STATUS", 0x00200, 0xF0700⟩,
   ⟨"W.OAMADDR", 0x00300, 0xF0700⟩, ⟨"W.OAMDATA", 0x00400, 0xF0700⟩, ⟨"W.SCROLL", 0x00500, 0xF0700⟩,
   ⟨"W.ADDR", 0x00600, 0xF0700⟩, ⟨"W.DATA", 0x00700, 0xF0700⟩, ⟨"R.CTRL", 0x20000, 0xF0700⟩,
   ⟨"R.MASK", 0x20100, 0xF0700⟩, ⟨"R.STATUS", 0x20200, 0xF0700⟩, ⟨"R.OAMADDR", 0x20300, 0xF0700⟩,
   ⟨"R.OAMDATA", 0x20400, 0xF0700⟩, ⟨"R.SCROLL", 0x20500, 0xF0700⟩, ⟨"R.ADDR", 0x20600, 0xF0700⟩,
   ⟨"R.DATA", 0x20700, 0xF0700⟩]

/-- The table's other rows. -/
def portRows : List OpcodeRow :=
  [⟨"OAM.W", 0x40000, 0xF0000⟩, ⟨"OAM.R", 0x60000, 0xF0000⟩, ⟨"STEP", 0x80000, 0xFFFFF⟩, ⟨"FRAME", 0xA0000, 0xFFFFF⟩]

/-- The twenty rows of spec/opcode_table.json. -/
def opcodeTable : List OpcodeRow := registerRows ++ portRows

/-! ### The host's numbering of an instruction's bits (log entry 11) -/

/-- Bits 19:0 of an instruction numbered as the table numbers it. -/
def tableWord (nbits w : Nat) : TWord := BitVec.ofNat 20 (w % 2 ^ nbits)

/-- The operand that follows the word, from bit 24 on (the word in whole bytes, then the 64-bit target). -/
def tableTarget (nbits w : Nat) : Cycles := BitVec.ofNat 64 (w % 2 ^ nbits / 2 ^ 24)

/-- The instruction the decoder reads from an instruction whose bits are `w`. -/
def decodeTableWord (nbits w : Nat) : Option Instr :=
  match decode (tableWord nbits w) (tableTarget nbits w) with
  | .ok i => some i
  | .error _ => none

end Sys2Proof
end

