-- ==== Sys2Proof/Machine/State.lean ====
section
/-! DEFINITION. Machine/State.lean: everything the spec gives the block, as plain data (spec/10_state.md rule R20),
the reasons a step can stop, and the construction state (spec/70_reset_and_hazards.md rule R290).

INVENTORY.md lists the fields one by one. Four of them are not elements of R20: `params` and `chr` are the inputs R20
names beside the state, `inbox` is what the host has still to issue, and `reply` is what the last transaction
returned. Log entries 1, 3, 6 and 7. -/

namespace Sys2Proof.Machine

/-- A store of `w`-bit cells: the (index, value) pairs of the cells that are not zero, indices strictly rising
(log entry 10). `Memory 8` is a list of `Host.Cell`. -/
abbrev Memory (w : Nat) := List (Nat × BitVec w)

/-- `scroll.next ∈ {X, Y}` (R43). -/
inductive ScrollHalf where
  | x
  | y
deriving DecidableEq, Repr

/-- `addr.next ∈ {Hi, Lo}` (R44). -/
inductive AddrHalf where
  | hi
  | lo
deriving DecidableEq, Repr

/-- The scroll double latch (R43). -/
structure ScrollLatch where
  x : Byte
  y : Byte
  next : ScrollHalf
deriving DecidableEq, Repr

/-- The VRAM address double latch (R44). -/
structure AddrLatch where
  val : VramAddr
  next : AddrHalf
deriving DecidableEq, Repr

/-- The direction a faulting VRAM access had (R260). -/
inductive VramOp where
  | load
  | store
deriving DecidableEq, Repr

/-- A fault record: its constructor is the code, its arguments the information R260 records. It is what the
block's own `fault` register holds, and is no stop of the model: raising it is a next state (log entry 4). -/
inductive FaultRecord where
  /-- `FAULT_VRAM_RANGE`, code 1: raised by `W.DATA` and `R.DATA` at an address ≥ 0x4000 (R261) -/
  | vramRange (addr : VramAddr) (op : VramOp)
  /-- `FAULT_REG_INDEX`, code 2: raised by nothing; R262 asks for the constructor (log entry 18) -/
  | regIndex (idx : Nat)
  /-- `NOTIMPL_OAMDATA_READ`, code 3: raised by every `R.OAMDATA` (R263) -/
  | oamdataRead (oamAddr : Byte)
  /-- `NOTIMPL_SPRITE_8X16`, code 4: raised by sprite resolution in 8×16 mode (R264) -/
  | sprite8x16 (scanline x slot : Nat)
deriving DecidableEq, Repr

/-- The number R260 gives the code. -/
def FaultRecord.number : FaultRecord → Nat
  | .vramRange _ _ => 1
  | .regIndex _ => 2
  | .oamdataRead _ => 3
  | .sprite8x16 _ _ _ => 4

/-- What a transaction returns to the host (R96). -/
inductive Reply where
  /-- a register store or `OAM.W`: nothing -/
  | nothing
  /-- a register load or `OAM.R`: one byte -/
  | byte (v : Byte)
  /-- STEP: `{frame_completed, nmi_requested}` (R58, R247) -/
  | stepped (frameCompleted nmiRequested : Bool)
  /-- FRAME: the contents of the frame buffer; `frameBytes` (Machine/Ops.lean) lists its 184320 bytes -/
  | frame (bytes : Memory 8)
  /-- a transaction that faults returns its fault instead (R266) -/
  | fault (r : FaultRecord)
deriving DecidableEq, Repr

/-- One transaction as the host issues it: the word, the operand of STEP (R90), and the pattern source `P_CHR` as it
stands during this transaction (R71: the same byte for the same address throughout it, anything between two).
A pattern address the list does not name supplies 0; every function from 13-bit addresses to bytes is such a list. -/
structure Transaction where
  word : TWord
  target : Cycles
  chr : Memory 8
deriving DecidableEq, Repr

/-- The state of the block. -/
structure State where
  /-- R21–R29 -/
  ctrl : Byte
  /-- R30–R36 -/
  mask : Byte
  /-- R37–R41 -/
  status : Byte
  /-- R42 -/
  oamAddr : Byte
  /-- R43 -/
  scroll : ScrollLatch
  /-- R44 -/
  addr : AddrLatch
  /-- R46: the fine part of `scroll_x` -/
  sxFine : Byte
  /-- R46: the nametable-select part of `scroll_x` -/
  sxNt : BitVec 1
  /-- R46: the fine part of `scroll_y` -/
  syFine : Byte
  /-- R46: the nametable-select part of `scroll_y` -/
  syNt : BitVec 1
  /-- R48: the VRAM read buffer -/
  dataBuf : Byte
  /-- R49: the scanline the timing machine will next process, an integer -/
  scanline : Nat
  /-- R50: the cycle counter -/
  cy : Cycles
  /-- R51: `nametable_ram[0..2047]` -/
  nametable : Memory 8
  /-- R52: `palette_ram[0..31]`, 6-bit cells -/
  palette : Memory 6
  /-- R53: `oam[0..255]` -/
  oam : Memory 8
  /-- R54: `frame[0..184319]` -/
  frame : Memory 8
  /-- R57: none, or the fault that halted the block -/
  fault : Option FaultRecord
  /-- R291: the construction parameters -/
  params : Params
  /-- R55, R71: the pattern source the host presents with the current transaction (an input) -/
  chr : Memory 8
  /-- R77: the transactions the host has still to issue, in the order it issues them (the model's own) -/
  inbox : List Transaction
  /-- R96: what the last transaction returned (the model's own; no transaction reads it) -/
  reply : Reply
deriving DecidableEq, Repr

/-- Why a step has no next state although the word names a transaction. -/
inductive Fault where
  /-- Raised by every transaction of a block whose `fault` is not none: "every later transaction has no step; the
  run is stuck at a faulted state" (R266). Safe: it is the spec's own stop. -/
  | halted (r : FaultRecord)
deriving DecidableEq, Repr

/-- Why a step gives a word no meaning. -/
inductive Refusal where
  /-- Raised by an arm of `exec` whose instruction has no meaning yet; no arm is left. Safe. -/
  | notModelled (mnemonic : String)
  /-- Raised by `step` on a reserved word: the decoder refuses it and the block never receives it (R95, R265).
  Safe: the run ends there, where the spec leaves the block's state unchanged. -/
  | reservedWord (why : DecodeError)
deriving DecidableEq, Repr

/-- The block constructed with the parameters `p`: R290. -/
def State.construct (p : Params) : State where
  ctrl := 0x00#8
  mask := 0x00#8
  status := 0x00#8
  oamAddr := 0x00#8
  scroll := { x := 0x00#8, y := 0x00#8, next := .x }
  addr := { val := 0x0000#16, next := .hi }
  sxFine := 0#8
  sxNt := 0#1
  syFine := 0#8
  syNt := 0#1
  dataBuf := 0x00#8
  scanline := 0
  cy := 0#64
  nametable := []
  palette := []
  oam := []
  frame := []
  fault := none
  params := p
  chr := []
  inbox := []
  reply := .nothing

/-- The block constructed with the default parameters of R7; the host has issued nothing yet. -/
def State.reset : State := State.construct Config.default

end Sys2Proof.Machine
end

