-- ==== Sys2Proof/Machine/Ops.lean ====
section
/-! DEFINITION. Machine/Ops.lean: the named operations over the stores and the state, written once: cell reads and
writes, the VRAM and OAM primitives of spec/20_memory.md, raising a fault, and starting a transaction. -/

namespace Sys2Proof.Machine

/-! ### Cells of one store (log entry 10) -/

/-- What an unlisted cell reads as: the construction value of every cell of every store (R290). -/
def unlisted (w : Nat) : BitVec w := 0#w

/-- The value of cell `a`. -/
def Memory.read {w : Nat} : Memory w → Nat → BitVec w
  | [], _ => unlisted w
  | (k, v) :: rest, a => if k = a then v else Memory.read rest a

/-- List cell `a` with the value `v`, in its place. -/
def Memory.insert {w : Nat} (a : Nat) (v : BitVec w) : Memory w → Memory w
  | [] => [(a, v)]
  | (k, u) :: rest =>
    if a < k then (a, v) :: (k, u) :: rest
    else if a = k then (a, v) :: rest
    else (k, u) :: Memory.insert a v rest

/-- `cell[a] <- v`; a cell that comes to hold what an unlisted cell reads as is no longer listed. -/
def Memory.write {w : Nat} (m : Memory w) (a : Nat) (v : BitVec w) : Memory w :=
  if v = unlisted w then m.filter fun c => c.1 ≠ a else m.insert a v

/-- The listed cells of consecutive values that start at cell `a`. -/
def Memory.cellsFrom {w : Nat} : Nat → List (BitVec w) → Memory w
  | _, [] => []
  | a, v :: rest => if v = unlisted w then Memory.cellsFrom (a + 1) rest else (a, v) :: Memory.cellsFrom (a + 1) rest

/-- Cells `a`, `a + 1`, ... `<- values`, and no other cell. -/
def Memory.splice {w : Nat} (m : Memory w) (a : Nat) (values : List (BitVec w)) : Memory w :=
  m.filter (fun c => c.1 < a) ++ (Memory.cellsFrom a values ++ m.filter fun c => a + values.length ≤ c.1)

/-- The canonical form of a store of `size` cells: indices strictly rising and in range, no listed cell equal to
what an unlisted one reads as. -/
abbrev Memory.wf {w : Nat} (size : Nat) (m : Memory w) : Prop :=
  m.Pairwise (fun c e => c.1 < e.1) ∧ ∀ c ∈ m, c.1 < size ∧ c.2 ≠ unlisted w

/-- The bytes of a frame store in address order (R162, R218). -/
def frameBytes (m : Memory 8) : List Byte := (List.range Config.frameSize).map m.read

/-! ### Raising a fault (R266)

There is no vector, no saved state and no return: "a halted block leaves `fault` set until it is reconstructed"
(R267), which is another `State.construct` (log entry 23). -/

/-- `raise Fault(code, info)`: `fault <- (code, info)`, and the transaction returns the fault in place of its result.
Nothing else changes. -/
def raise (r : FaultRecord) (s : State) : State := { s with fault := some r, reply := .fault r }

/-- What a transaction returns to the host (R96). -/
def returning (v : Reply) (s : State) : State := { s with reply := v }

/-- Perform a transaction whose effect is `effect`: "every transaction starts only if `fault = none`" (R266); a halted
block has no step. -/
def transact (s : State) (effect : State → State) : Host.Outcome State Fault Refusal :=
  match s.fault with
  | none => .next (effect s)
  | some r => .fault (.halted r)

/-! ### VRAM (spec/20_memory.md section 2) -/

/-- `ChrLoad(a)`: the byte the host's cartridge supplies (R71). -/
def chrLoad (s : State) (a : Nat) : Byte := s.chr.read a

/-- The cell of `nametable_ram` at a nametable address: `a & 0x7FF` (R64). -/
def nametableCell (a : VramAddr) : Nat := (a &&& 0x7FF#16).toNat

/-- The cell of `palette_ram` a load at a palette address reads: `a & 0x1F` (R65). -/
def paletteCell (a : VramAddr) : Nat := (a &&& 0x1F#16).toNat

/-- The cell a store at a palette address writes: "a store whose cell index `a & 0x1F` is 0x10 is written to cell 0x00
instead" (R66). -/
def paletteStoreCell (a : VramAddr) : Nat := if paletteCell a = 0x10 then 0x00 else paletteCell a

/-- `VramLoad(a)` (R61). -/
def vramLoad (s : State) (a : VramAddr) : Except FaultRecord Byte :=
  if a < 0x2000#16 then .ok (chrLoad s a.toNat)
  else if a < 0x3F00#16 then .ok (s.nametable.read (nametableCell a))
  else if a < 0x4000#16 then .ok ((s.palette.read (paletteCell a)).setWidth 8)
  else .error (.vramRange a .load)

/-- `VramStore(a, v)` (R62); a palette store keeps `v & 0x3F`, six bits (R67). -/
def vramStore (s : State) (a : VramAddr) (v : Byte) : Except FaultRecord State :=
  if a < 0x2000#16 then .ok s
  else if a < 0x3F00#16 then .ok { s with nametable := s.nametable.write (nametableCell a) v }
  else if a < 0x4000#16 then .ok { s with palette := s.palette.write (paletteStoreCell a) ((v &&& 0x3F#8).setWidth 6) }
  else .error (.vramRange a .store)

/-! ### OAM (R69) -/

/-- `OamLoad(i)` -/
def oamLoad (s : State) (i : Byte) : Byte := s.oam.read i.toNat

/-- `OamStore(i, v)` -/
def oamStore (s : State) (i v : Byte) : State := { s with oam := s.oam.write i.toNat v }

end Sys2Proof.Machine
end

