-- ==== Sys2Proof/Machine/Ports.lean ====
section
/-! DEFINITION. Machine/Ports.lean: the OAM port and the frame read (spec/41_external_ports.md). -/

namespace Sys2Proof.Machine

/-- `OAM.W a, d` (R160): `oam_addr` is neither read nor changed. -/
def execOamW (a d : Byte) (s : State) : Host.Outcome State Fault Refusal :=
  transact s fun s => returning .nothing (oamStore s a d)

/-- `OAM.R a` (R161) -/
def execOamR (a : Byte) (s : State) : Host.Outcome State Fault Refusal :=
  transact s fun s => returning (.byte (oamLoad s a)) s

/-- `FRAME` (R162): the frame buffer's contents as they stand (log entry 16). -/
def execFrame (s : State) : Host.Outcome State Fault Refusal :=
  transact s fun s => returning (.frame s.frame) s

end Sys2Proof.Machine
end

