-- ==== Sys2Proof/Machine/Operands.lean ====
section
/-! DEFINITION. Machine/Operands.lean: what a transaction's rule reads out of the registers before it computes: the
fields of `ctrl` and `mask` (spec/10_state.md), the address increment, and the two scroll accumulators. -/

namespace Sys2Proof.Machine

/-! ### Fields of ctrl (R22–R29); bit 6 has no function (R28) -/

/-- `ctrl[0]` (R22), read only when ctrl is stored -/
def ctrlXnt (c : Byte) : BitVec 1 := c.extractLsb' 0 1

/-- `ctrl[1]` (R23), read only when ctrl is stored -/
def ctrlYnt (c : Byte) : BitVec 1 := c.extractLsb' 1 1

/-- `ctrl[2]` (R24) -/
def ctrlInc (s : State) : Bool := s.ctrl.getLsbD 2

/-- `ctrl[3]` (R25) -/
def ctrlSpt (s : State) : Bool := s.ctrl.getLsbD 3

/-- `ctrl[4]` (R26) -/
def ctrlBgt (s : State) : Bool := s.ctrl.getLsbD 4

/-- `ctrl[5]` (R27): 8×16 sprites -/
def ctrlSize (s : State) : Bool := s.ctrl.getLsbD 5

/-- `ctrl[7]` (R29) -/
def ctrlNmie (s : State) : Bool := s.ctrl.getLsbD 7

/-! ### Fields of mask (R34, R35); the other bits have no effect (R31–R33, R36) -/

/-- `mask[3]` (R34) -/
def maskBge (s : State) : Bool := s.mask.getLsbD 3

/-- `mask[4]` (R35) -/
def maskSpe (s : State) : Bool := s.mask.getLsbD 4

/-! ### The VRAM address (R127) -/

/-- `Inc()` -/
def inc (s : State) : VramAddr := if ctrlInc s then 32#16 else 1#16

/-- `addr.val <- (addr.val + Inc()) mod 2^16` -/
def advanceAddr (s : State) : State := { s with addr := { s.addr with val := s.addr.val + inc s } }

/-! ### The pattern bases (R205, R209) -/

/-- `BgBase` -/
def bgBase (s : State) : Nat := if ctrlBgt s then 0x1000 else 0x0000

/-- `SprBase` -/
def sprBase (s : State) : Nat := if ctrlSpt s then 0x1000 else 0x0000

/-! ### The scroll accumulators (R46) -/

/-- `scroll_x = 256 * sx_nt + sx_fine` -/
def scrollX (s : State) : Nat := 256 * s.sxNt.toNat + s.sxFine.toNat

/-- `scroll_y = 240 * sy_nt + sy_fine` -/
def scrollY (s : State) : Nat := 240 * s.syNt.toNat + s.syFine.toNat

end Sys2Proof.Machine
end

