-- ==== Sys2Proof/Machine/Flags.lean ====
section
/-! DEFINITION. Machine/Flags.lean: the status register's three flags, who sets and clears each, and its load
(spec/10_state.md rules R37–R41). -/

namespace Sys2Proof.Machine

/-- `status[5]`, sprite overflow (R39) -/
def statusOvf (s : State) : Bool := s.status.getLsbD 5

/-- `status[6]`, sprite-zero hit (R40) -/
def statusS0hit (s : State) : Bool := s.status.getLsbD 6

/-- `status[7]`, vblank (R41) -/
def statusVbl (s : State) : Bool := s.status.getLsbD 7

/-- `status.OVF <- 1` when the evaluator met a ninth sprite, else unchanged (R183); nothing clears it (R39). -/
def raiseOvf (ninth : Bool) (st : Byte) : Byte := if ninth then st ||| 0x20#8 else st

/-- `status.S0HIT <- 1` when a column hit, else unchanged (R213). -/
def raiseS0hit (hit : Bool) (st : Byte) : Byte := if hit then st ||| 0x40#8 else st

/-- Vblank entry: `status.VBL <- 1`, `status.S0HIT <- 0` (R244). -/
def enterVblank (st : Byte) : Byte := (st ||| 0x80#8) &&& 0xBF#8

/-- Frame end: `status.VBL <- 0` (R245). -/
def leaveVblank (st : Byte) : Byte := st &&& 0x7F#8

/-- The status register as a load sees it: bits 4:0 "read as 0 and nothing writes them" (R38, log entry 15). -/
def statusByte (s : State) : Byte := s.status &&& 0xE0#8

end Sys2Proof.Machine
end

