-- ==== Sys2Proof/Machine/Registers.lean ====
section
/-! DEFINITION. Machine/Registers.lean: the sixteen register-window transactions (spec/40_register_bank.md). -/

namespace Sys2Proof.Machine

/-! ### Stores (section 2) -/

/-- R111: ctrl, and with it both nametable-select parts. -/
def storeCtrl (d : Byte) (s : State) : State := { s with ctrl := d, sxNt := ctrlXnt d, syNt := ctrlYnt d }

/-- R116: the half `scroll.next` names, and with it the fine part of that accumulator. -/
def storeScroll (d : Byte) (s : State) : State :=
  match s.scroll.next with
  | .x => { s with scroll := { s.scroll with x := d, next := .y }, sxFine := d }
  | .y => { s with scroll := { s.scroll with y := d, next := .x }, syFine := d }

/-- R117: the byte `addr.next` names; the Lo store also sets `sx_nt` from bit 10 of the new value. -/
def storeAddr (d : Byte) (s : State) : State :=
  match s.addr.next with
  | .hi => { s with addr := { val := d ++ s.addr.val.extractLsb' 0 8, next := .lo } }
  | .lo =>
    let val : VramAddr := s.addr.val.extractLsb' 8 8 ++ d
    { s with addr := { val := val, next := .hi }, sxNt := val.extractLsb' 10 1 }

/-- R118: VRAM at `addr.val`, then the advance; a fault comes before either. -/
def storeData (d : Byte) (s : State) : State :=
  match vramStore s s.addr.val d with
  | .error r => raise r s
  | .ok t => returning .nothing (advanceAddr t)

/-- `W.CTRL d` (R111) -/
def execWCtrl (d : Byte) (s : State) : Host.Outcome State Fault Refusal :=
  transact s fun s => returning .nothing (storeCtrl d s)

/-- `W.MASK d` (R112) -/
def execWMask (d : Byte) (s : State) : Host.Outcome State Fault Refusal :=
  transact s fun s => returning .nothing { s with mask := d }

/-- `W.STATUS d` (R113): no effect. -/
def execWStatus (_d : Byte) (s : State) : Host.Outcome State Fault Refusal :=
  transact s fun s => returning .nothing s

/-- `W.OAMADDR d` (R114) -/
def execWOamaddr (d : Byte) (s : State) : Host.Outcome State Fault Refusal :=
  transact s fun s => returning .nothing { s with oamAddr := d }

/-- `W.OAMDATA d` (R115); the cursor wraps modulo 256, its width. -/
def execWOamdata (d : Byte) (s : State) : Host.Outcome State Fault Refusal :=
  transact s fun s => returning .nothing { oamStore s s.oamAddr d with oamAddr := s.oamAddr + 1#8 }

/-- `W.SCROLL d` (R116) -/
def execWScroll (d : Byte) (s : State) : Host.Outcome State Fault Refusal :=
  transact s fun s => returning .nothing (storeScroll d s)

/-- `W.ADDR d` (R117) -/
def execWAddr (d : Byte) (s : State) : Host.Outcome State Fault Refusal :=
  transact s fun s => returning .nothing (storeAddr d s)

/-- `W.DATA d` (R118) -/
def execWData (d : Byte) (s : State) : Host.Outcome State Fault Refusal :=
  transact s (storeData d)

/-! ### Loads (section 3) -/

/-- R45: both latches to their first-write state. -/
def resetLatches (s : State) : State :=
  { s with scroll := { s.scroll with next := .x }, addr := { s.addr with next := .hi } }

/-- R126: below 0x3F00 the byte returned is the old `data_buf` and the byte fetched replaces it; from 0x3F00 on the
byte fetched is returned and `data_buf` takes no part. -/
def loadData (s : State) : State :=
  match vramLoad s s.addr.val with
  | .error r => raise r s
  | .ok v =>
    if s.addr.val < 0x3F00#16 then returning (.byte s.dataBuf) { advanceAddr s with dataBuf := v }
    else returning (.byte v) (advanceAddr s)

/-- `R.CTRL` (R119) -/
def execRCtrl (s : State) : Host.Outcome State Fault Refusal :=
  transact s fun s => returning (.byte s.ctrl) s

/-- `R.MASK` (R120) -/
def execRMask (s : State) : Host.Outcome State Fault Refusal :=
  transact s fun s => returning (.byte s.mask) s

/-- `R.STATUS` (R121): no flag is cleared. -/
def execRStatus (s : State) : Host.Outcome State Fault Refusal :=
  transact s fun s => returning (.byte (statusByte s)) (resetLatches s)

/-- `R.OAMADDR` (R122) -/
def execROamaddr (s : State) : Host.Outcome State Fault Refusal :=
  transact s fun s => returning (.byte 0x00#8) s

/-- `R.OAMDATA` (R123): always `NOTIMPL_OAMDATA_READ`. -/
def execROamdata (s : State) : Host.Outcome State Fault Refusal :=
  transact s fun s => raise (.oamdataRead s.oamAddr) s

/-- `R.SCROLL` (R124) -/
def execRScroll (s : State) : Host.Outcome State Fault Refusal :=
  transact s fun s => returning (.byte 0x00#8) s

/-- `R.ADDR` (R125) -/
def execRAddr (s : State) : Host.Outcome State Fault Refusal :=
  transact s fun s => returning (.byte 0x00#8) s

/-- `R.DATA` (R126) -/
def execRData (s : State) : Host.Outcome State Fault Refusal :=
  transact s loadData

end Sys2Proof.Machine
end

