-- ==== Sys2Proof/Machine/Sprites.lean ====
section
/-! DEFINITION. Machine/Sprites.lean: the sprite model and the scanline evaluator (spec/42_sprites.md). A sprite is
"derived, not stored": every function reads OAM and ctrl where its rule does. -/

namespace Sys2Proof.Machine

/-! ### Sprite records (R170–R177) -/

/-- The four bytes of an OAM record. -/
structure Sprite where
  y : Byte
  tile : Byte
  attr : Byte
  x : Byte
deriving DecidableEq, Repr

/-- `Sprite(s)`: bytes `4s` to `4s + 3` of OAM (R170). -/
def sprite (s : State) (slot : Nat) : Sprite where
  y := oamLoad s (BitVec.ofNat 8 (4 * slot))
  tile := oamLoad s (BitVec.ofNat 8 (4 * slot + 1))
  attr := oamLoad s (BitVec.ofNat 8 (4 * slot + 2))
  x := oamLoad s (BitVec.ofNat 8 (4 * slot + 3))

/-- `h` (R172) -/
def spriteHeight (s : State) : Nat := if ctrlSize s then 16 else 8

/-- `palette(s) = attr[1:0] + 4` (R173) -/
def Sprite.paletteBank (p : Sprite) : Nat := (p.attr.extractLsb' 0 2).toNat + 4

/-- `attr[5]`: true is "below-background" (R174) -/
def Sprite.behind (p : Sprite) : Bool := p.attr.getLsbD 5

/-- `attr[6]` (R175) -/
def Sprite.flipH (p : Sprite) : Bool := p.attr.getLsbD 6

/-- `attr[7]` (R176) -/
def Sprite.flipV (p : Sprite) : Bool := p.attr.getLsbD 7

/-! ### Tile addressing (R178, R179) -/

/-- The pattern addresses at which a sprite's tiles start, top tile first. In 8×16 mode no rule samples them: "this rule
fixes the addresses a future extension must use and nothing more" (R179). -/
def spriteTiles (s : State) (p : Sprite) : List Nat :=
  if ctrlSize s then
    let bank := if p.tile.getLsbD 0 then 0x1000 else 0x0000
    let top := (p.tile &&& 0xFE#8).toNat
    [bank + 16 * top, bank + 16 * (top + 1)]
  else [sprBase s + 16 * p.tile.toNat]

/-! ### Geometry, on integers (R180, R181) -/

/-- `on_scanline(s, y)` -/
def onScanline (s : State) (slot y : Nat) : Bool :=
  decide ((sprite s slot).y.toNat ≤ y ∧ y < (sprite s slot).y.toNat + spriteHeight s)

/-- `in_bounding_box(s, x, y)` -/
def inBoundingBox (s : State) (slot x y : Nat) : Bool :=
  decide ((sprite s slot).x.toNat ≤ x ∧ x < (sprite s slot).x.toNat + 8) && onScanline s slot y

/-! ### The evaluator (R182, R183) -/

/-- What `Evaluate(y)` gives: the visible-sprite list (R56) and whether it met a ninth qualifying sprite. -/
structure Evaluated where
  slots : List Nat
  ninth : Bool
deriving DecidableEq, Repr

/-- The loop of R182 over the slots that are left, `list` holding the slots already selected: the ninth qualifying slot
ends it. -/
def evaluateFrom (s : State) (y : Nat) (list : List Nat) : List Nat → Evaluated
  | [] => ⟨list, false⟩
  | slot :: rest =>
    if onScanline s slot y then
      if list.length < Config.spritesPerLine then evaluateFrom s y (list ++ [slot]) rest
      else ⟨list, true⟩
    else evaluateFrom s y list rest

/-- `Evaluate(y)`: all slots in ascending order (R182). -/
def evaluate (s : State) (y : Nat) : Evaluated := evaluateFrom s y [] (List.range Config.slots)

end Sys2Proof.Machine
end

