-- ==== Sys2Proof/Machine/Pixels.lean ====
section
/-! DEFINITION. Machine/Pixels.lean: the pixel pipeline, palette lookup and RGB framing
(spec/43_pixel_pipeline.md).

Everything below reads VRAM through `vramLoad`, which may raise a fault, and OAM through `oamLoad` (R76). A layer's
pixel is kept as its palette index, and the RGB triple is looked up once, for the pixel the compositor chose
(log entry 19). -/

namespace Sys2Proof.Machine

/-! ### Shared fetch primitives (R200, R201) -/

/-- `VramLoad` at an address the pipeline forms on integers. -/
def fetch (s : State) (a : Nat) : Except FaultRecord Byte := vramLoad s (BitVec.ofNat 16 a)

/-- `PatternPixel(base, tile, row, col)`: bit `7 - col` of the two plane bytes. -/
def patternPixel (s : State) (base tile row col : Nat) : Except FaultRecord (BitVec 2) := do
  let lo ← fetch s (base + 16 * tile + row)
  let hi ← fetch s (base + 16 * tile + row + 8)
  return BitVec.ofBool (hi.getLsbD (7 - col)) ++ BitVec.ofBool (lo.getLsbD (7 - col))

/-- Entry `c` of `P_PALETTE_RGB`. -/
def tableRgb (s : State) (c : BitVec 6) : Rgb := s.params.paletteRgb.getD c.toNat default

/-- `PaletteRGB(i)` -/
def paletteRgb (s : State) (i : BitVec 5) : Except FaultRecord Rgb := do
  let c ← fetch s (0x3F00 + i.toNat)
  return tableRgb s ((c &&& 0x3F#8).setWidth 6)

/-! ### Background tile fetch (R202–R208) -/

/-- `Xp` and `Yp` of R202. -/
def bgXp (s : State) (x : Nat) : Nat := (x + scrollX s) % 512

/-- see `bgXp` -/
def bgYp (s : State) (y : Nat) : Nat := (y + scrollY s) % 480

/-- The tile coordinates and quadrant of one column (R202, R203). -/
structure BgTile where
  /-- `NTBase` -/
  base : Nat
  /-- `tx` -/
  tx : Nat
  /-- `ty` -/
  ty : Nat
deriving DecidableEq, Repr

/-- R203 for the pixel coordinates `xp`, `yp`. -/
def bgTile (xp yp : Nat) : BgTile where
  base := 0x2000 + (if 32 ≤ xp / 8 then 0x400 else 0) + (if 30 ≤ yp / 8 then 0x800 else 0)
  tx := xp / 8 % 32
  ty := yp / 8 % 30

/-- The nametable address of the tile id (R204). -/
def BgTile.tileAddr (t : BgTile) : Nat := t.base + 32 * t.ty + t.tx

/-- The nametable address of the attribute byte (R206). -/
def BgTile.attrAddr (t : BgTile) : Nat := t.base + 0x3C0 + 8 * (t.ty / 4) + t.tx / 4

/-- The shift of the tile's two bits in the attribute byte: 0, 2, 4 or 6 (R206). -/
def BgTile.attrShift (t : BgTile) : Nat := 4 * (t.ty % 4 / 2) + 2 * (t.tx % 4 / 2)

/-- `Background(x)` of scanline `y`, as a palette index `(at << 2) | pc` of 0..15; none is transparent (R204–R207).
When `pc` is 0 no attribute byte is fetched. -/
def background (s : State) (x y : Nat) : Except FaultRecord (Option (BitVec 5)) := do
  let t := bgTile (bgXp s x) (bgYp s y)
  let tile ← fetch s t.tileAddr
  let pc ← patternPixel s (bgBase s) tile.toNat (bgYp s y % 8) (bgXp s x % 8)
  if pc = 0#2 then return none
  let ab ← fetch s t.attrAddr
  return some (0#1 ++ (ab.extractLsb' t.attrShift 2 ++ pc))

/-- The background of a column after gating by `mask.BGE` (R208, R219). -/
def gatedBackground (s : State) (x y : Nat) : Except FaultRecord (Option (BitVec 5)) :=
  if maskBge s then background s x y else .ok none

/-! ### Sprite resolution (R209–R215) -/

/-- `SpriteOffset(s, x)` for a column and scanline inside the bounding box (R210): (row, col). -/
def spriteOffset (p : Sprite) (x y : Nat) : Nat × Nat :=
  (if p.flipV then 7 - (y - p.y.toNat) else y - p.y.toNat, if p.flipH then 7 - (x - p.x.toNat) else x - p.x.toNat)

/-- The first opaque match: its palette index `(palette(s) << 2) | pc` of 16..31, its priority bit, and whether it sets
sprite-zero hit (R213, R214). -/
structure SpriteHit where
  index : BitVec 5
  behind : Bool
  zeroHit : Bool
deriving DecidableEq, Repr

/-- `SpritePixel(list, x, bg_opaque)` of scanline `y`: the walk of R209. -/
def spritePixel (s : State) (x y : Nat) (bgOpaque : Bool) : List Nat → Except FaultRecord (Option SpriteHit)
  | [] => .ok none
  | slot :: rest =>
    if inBoundingBox s slot x y then
      if ctrlSize s then .error (.sprite8x16 y x slot)
      else do
        let p := sprite s slot
        let pc ← patternPixel s (sprBase s) p.tile.toNat (spriteOffset p x y).1 (spriteOffset p x y).2
        if pc = 0#2 then spritePixel s x y bgOpaque rest
        else return some ⟨BitVec.ofNat 5 (4 * p.paletteBank + pc.toNat), p.behind, slot == 0 && bgOpaque⟩
    else spritePixel s x y bgOpaque rest

/-- The sprite layer of a column after gating by `mask.SPE` (R215, R219). -/
def gatedSprite (s : State) (list : List Nat) (x y : Nat) (bgOpaque : Bool) : Except FaultRecord (Option SpriteHit) :=
  if maskSpe s then spritePixel s x y bgOpaque list else .ok none

/-! ### Compositing (R216, R217) -/

/-- `Composite(bg, sp)`, as a palette index; index 0 is the backdrop. -/
def composite (bg : Option (BitVec 5)) (sp : Option SpriteHit) : BitVec 5 :=
  match bg, sp with
  | none, none => 0#5
  | some b, none => b
  | none, some h => h.index
  | some b, some h => if h.behind then b else h.index

/-- One column: the palette index of the pixel, its RGB triple, and whether it sets `status.S0HIT`. -/
structure Pixel where
  index : BitVec 5
  rgb : Rgb
  zeroHit : Bool
deriving DecidableEq, Repr

/-- The body of R219's loop for column `x` of scanline `y`: background, then sprites, then the composite. -/
def pixel (s : State) (list : List Nat) (x y : Nat) : Except FaultRecord Pixel := do
  let bg ← gatedBackground s x y
  let sp ← gatedSprite s list x y bg.isSome
  let rgb ← paletteRgb s (composite bg sp)
  return ⟨composite bg sp, rgb, sp.any (·.zeroHit)⟩

/-! ### The scanline procedure (R218, R219) -/

/-- What the columns of a row give: the bytes of the columns before the fault, whether one of them set `status.S0HIT`,
and the fault that ended the row, if any. -/
structure Row where
  bytes : List Byte
  zeroHit : Bool
  fault : Option FaultRecord
deriving DecidableEq, Repr

/-- The columns of R219 in ascending order; the first fault ends them (R269). -/
def columnsFrom (s : State) (list : List Nat) (y : Nat) : List Nat → Row
  | [] => ⟨[], false, none⟩
  | x :: rest =>
    match pixel s list x y with
    | .error r => ⟨[], false, some r⟩
    | .ok p =>
      match columnsFrom s list y rest with
      | ⟨bytes, hit, fault⟩ => ⟨p.rgb.r :: p.rgb.g :: p.rgb.b :: bytes, p.zeroHit || hit, fault⟩

/-- The index in `frame` of the first byte of column `x` of row `y` (R218). -/
def frameIndex (x y : Nat) : Nat := 3 * (256 * y + x)

/-- `RenderScanline(y)` (R219). No column reads `status` or `frame`, so the row is computed from the state before it and
its effects land together (log entry 14); a fault leaves what the columns before it did (R268, log entry 5). -/
def renderScanline (y : Nat) (s : State) : State :=
  let ev := evaluate s y
  let row := columnsFrom s ev.slots y (List.range Config.columns)
  let t := { s with
    status := raiseS0hit row.zeroHit (raiseOvf ev.ninth s.status)
    frame := s.frame.splice (frameIndex 0 y) row.bytes }
  match row.fault with
  | none => t
  | some r => raise r t

end Sys2Proof.Machine
end

