-- ==== Sys2Proof/Machine/Timing.lean ====
section
/-! DEFINITION. Machine/Timing.lean: the scanline timing state machine and its one transaction, STEP
(spec/44_timing.md). -/

namespace Sys2Proof.Machine

/-- The step result while a STEP runs (R58): created at 0, set by its iterations. -/
structure Marks where
  /-- `frame_completed` -/
  fc : Bool
  /-- `nmi_requested` -/
  nmi : Bool
deriving DecidableEq, Repr

/-- "an iteration runs while `cy + Q ≤ target`, computed on integers" (R241). -/
abbrev due (target : Cycles) (s : State) : Prop := s.cy.toNat + s.params.q ≤ target.toNat

/-- The first part of an iteration: the current scanline is rendered when it is visible (R242). -/
def renderCurrent (s : State) : State :=
  if s.scanline < Config.rows then renderScanline s.scanline s else s

/-- The rest of an iteration: the scanline advance (R243), vblank entry (R244) or frame end (R245), and the cycle
advance (R246). -/
def advanceScanline (s : State) : State :=
  let next := s.scanline + 1
  let t := { s with cy := s.cy + BitVec.ofNat 64 s.params.q }
  if next = s.params.v then { t with scanline := next, status := enterVblank s.status }
  else if next = s.params.n then { t with scanline := 0, status := leaveVblank s.status }
  else { t with scanline := next }

/-- The marks an iteration leaves that advances from `s` (R244, R245). -/
def markScanline (s : State) (m : Marks) : Marks where
  fc := m.fc || decide (s.scanline + 1 ≠ s.params.v ∧ s.scanline + 1 = s.params.n)
  nmi := m.nmi || (decide (s.scanline + 1 = s.params.v) && ctrlNmie s)

/-- The loop of R240: at most `n` more iterations. A fault ends the STEP at once, with the fault for its result
(R266, R269). -/
def stepLoop (target : Cycles) : Nat → Marks → State → State
  | 0, m, s => returning (.stepped m.fc m.nmi) s
  | n + 1, m, s =>
    if due target s then
      match (renderCurrent s).fault with
      | some _ => renderCurrent s
      | none => stepLoop target n (markScanline (renderCurrent s) m) (advanceScanline (renderCurrent s))
    else returning (.stepped m.fc m.nmi) s

/-- The number of iterations after which `cy + Q ≤ target` no longer holds: each adds Q to `cy` (R252, log entry 13). -/
def iterations (target : Cycles) (s : State) : Nat := (target.toNat - s.cy.toNat) / s.params.q

/-- `STEP target` (R240) -/
def execStep (target : Cycles) (s : State) : Host.Outcome State Fault Refusal :=
  transact s fun s => stepLoop target (iterations target s) ⟨false, false⟩ s

end Sys2Proof.Machine
end

