-- ==== Sys2Proof/Machine/Dispatch.lean ====
section
/-! DEFINITION. Machine/Dispatch.lean: one arm per transaction. -/

namespace Sys2Proof.Machine

def exec (i : Instr) (s : State) : Host.Outcome State Fault Refusal :=
  match i with
  | .wCtrl d => Sys2Proof.Machine.execWCtrl d s
  | .wMask d => Sys2Proof.Machine.execWMask d s
  | .wStatus d => Sys2Proof.Machine.execWStatus d s
  | .wOamaddr d => Sys2Proof.Machine.execWOamaddr d s
  | .wOamdata d => Sys2Proof.Machine.execWOamdata d s
  | .wScroll d => Sys2Proof.Machine.execWScroll d s
  | .wAddr d => Sys2Proof.Machine.execWAddr d s
  | .wData d => Sys2Proof.Machine.execWData d s
  | .rCtrl => Sys2Proof.Machine.execRCtrl s
  | .rMask => Sys2Proof.Machine.execRMask s
  | .rStatus => Sys2Proof.Machine.execRStatus s
  | .rOamaddr => Sys2Proof.Machine.execROamaddr s
  | .rOamdata => Sys2Proof.Machine.execROamdata s
  | .rScroll => Sys2Proof.Machine.execRScroll s
  | .rAddr => Sys2Proof.Machine.execRAddr s
  | .rData => Sys2Proof.Machine.execRData s
  | .oamW a d => Sys2Proof.Machine.execOamW a d s
  | .oamR a => Sys2Proof.Machine.execOamR a s
  | .step target => Sys2Proof.Machine.execStep target s
  | .frame => Sys2Proof.Machine.execFrame s

end Sys2Proof.Machine
end

