-- ==== Sys2Proof/Machine/Step.lean ====
section
/-! DEFINITION. Machine/Step.lean: one step of the machine.

The block has no program counter: "the order in which transactions run is the order in which the host issues them"
(R252). `State.inbox` is what the host has still to issue, and a step takes its first transaction (log entries 1
and 2). -/

namespace Sys2Proof.Machine

/-- The state in which the host's transaction `t` is performed: it has left the inbox, and the pattern source is the one
the host presents with it (R71). -/
def State.take (s : State) (t : Transaction) (rest : List Transaction) : State := { s with inbox := rest, chr := t.chr }

/-- One step: the host's next transaction. With none, the block "does nothing between transactions and loses nothing"
(R277); a reserved word is refused and the block never receives it (R265). -/
def step (s : State) : Host.Outcome State Fault Refusal :=
  match s.inbox with
  | [] => .next s
  | t :: rest =>
    match decode t.word t.target with
    | .error e => .refused (.reservedWord e)
    | .ok i => exec i (s.take t rest)

/-- `s` with the instruction whose bits are `w` (numbered as the opcode table numbers them, log entry 11) as the host's
next transaction. -/
def State.withFetchWord (s : State) (nbits w : Nat) : State :=
  { s with inbox := { word := tableWord nbits w, target := tableTarget nbits w, chr := s.chr } :: s.inbox }

end Sys2Proof.Machine
end

