-- ==== Sys2Proof/Machine/Sequence.lean ====
section
/-! DEFINITION. Machine/Sequence.lean: transactions performed one after another, for the pseudo-transactions of R99
and for statements about more than one transaction. -/

namespace Sys2Proof.Machine

/-- The transactions of `is` in order, stopping at the first that has no next state (R77). -/
def execAll : List Instr → State → Host.Outcome State Fault Refusal
  | [], s => .next s
  | i :: rest, s =>
    match exec i s with
    | .next t => execAll rest t
    | .fault r => .fault r
    | .refused r => .refused r

/-- A pseudo-transaction: "the effect of its sequence, including every side effect" (R99). -/
def execPseudo (p : Pseudo) (s : State) : Host.Outcome State Fault Refusal := execAll p.expand s

end Sys2Proof.Machine
end

