-- ==== Sys2Proof/Safety.lean ====
section
/-! DEFINITION. Safety.lean: what a good state and a safe run are, in the terms the statements use. -/

namespace Sys2Proof.Machine

/-- The block halted in the middle of a STEP. R268 and item U10 leave everything but `fault` unspecified then, so the
invariant below says nothing of the registers of such a state. -/
def stepFaulted (s : State) : Bool :=
  match s.fault with
  | some (.sprite8x16 _ _ _) => true
  | some (.vramRange _ _) | some (.regIndex _) | some (.oamdataRead _) | none => false

/-- Every store is in its canonical form, with the number of cells R51–R54 give it. -/
abbrev MemoryInv (s : State) : Prop :=
  s.nametable.wf Config.nametableSize ∧ s.palette.wf Config.paletteSize ∧ s.oam.wf Config.oamSize ∧
    s.frame.wf Config.frameSize

/-- `status[4:0]` are 0 (R38), the fine parts of the accumulators are the latch bytes (R47), and palette cell 0x10 holds
its construction value (R66, conflict C10). -/
abbrev RegisterInv (s : State) : Prop :=
  s.status &&& 0x1F#8 = 0#8 ∧ s.sxFine = s.scroll.x ∧ s.syFine = s.scroll.y ∧ s.palette.read 0x10 = 0#6

/-- `scanline` lies in 0..N−1 (R49), `cy mod Q = 0` (R248), and `status.VBL` is 1 exactly while `scanline` is in V..N−1
(R249). -/
abbrev TimingInv (s : State) : Prop :=
  s.scanline < s.params.n ∧ s.cy.toNat % s.params.q = 0 ∧ statusVbl s = decide (s.params.v ≤ s.scanline)

/-- The invariant of the block. -/
abbrev Inv (s : State) : Prop := MemoryInv s ∧ (stepFaulted s = false → RegisterInv s ∧ TimingInv s)

/-- A run of the machine from `s` is safe when no state it reaches is halted. -/
def SafeRun (s : State) : Prop := ∀ (k : Nat) (t : State), core.run k s = .next t → t.fault = none

end Sys2Proof.Machine
end

