-- ==== Sys2Proof/Certificates/Slice0/Obligations.lean ====
section
/-! DEFINITION. Certificates/Slice0/Obligations.lean: the statements for the provers, with the few terms they share.

A statement that says `exec i s = .next …` for every state that is not halted says where the transaction completes and,
by the record it names, what it leaves unchanged. Statements about a STEP say nothing of the registers of a block that
the STEP halted (R268, item U10). Where a docstring names a decision D<n>, the rule rests on the spec's own choice in
spec/92_eei_decisions.md. -/

open Sys2Proof Sys2Proof.Machine

namespace Sys2Proof.Claims

/-- A register-window store word with address byte `a` and data byte `d` (R90, R91). -/
abbrev storeWord (a d : Byte) : TWord := 0#2 ++ 0#1 ++ 0#1 ++ a ++ d

/-- A register-window load word with address byte `a`; `d` is ignored. -/
abbrev loadWord (a d : Byte) : TWord := 0#2 ++ 1#1 ++ 0#1 ++ a ++ d

/-- Byte `j` of the record of a sprite slot. -/
def record (s : State) (slot j : Nat) : Byte := s.oam.read (4 * slot + j)

/-- The sprite height of `ctrl[5]`. -/
def height (s : State) : Nat := if s.ctrl.getLsbD 5 then 16 else 8

/-- The slot's Y field puts it on scanline `y`. -/
def onLine (s : State) (y slot : Nat) : Bool :=
  decide ((record s slot 0).toNat ≤ y ∧ y < (record s slot 0).toNat + height s)

/-- The slots on scanline `y`, ascending. -/
def qualifying (s : State) (y : Nat) : List Nat := (List.range 64).filter (onLine s y)

/-- The slots selected for scanline `y`. -/
def selected (s : State) (y : Nat) : List Nat := (qualifying s y).take 8

/-- The slot's box covers column `x` of scanline `y`. -/
def covers (s : State) (x y slot : Nat) : Bool :=
  decide ((record s slot 3).toNat ≤ x ∧ x < (record s slot 3).toNat + 8) && onLine s y slot

/-- Bit `b` of a byte as a number. -/
def bit (v : Byte) (b : Nat) : Nat := v.toNat / 2 ^ b % 2

/-- The pattern colour 0..3 of one pixel of a tile, from the two plane bytes of the pattern source. -/
def patternColor (s : State) (base tile row col : Nat) : Nat :=
  2 * bit (s.chr.read (base + 16 * tile + row + 8)) (7 - col) + bit (s.chr.read (base + 16 * tile + row)) (7 - col)

/-- The pattern colour a covering 8×8 sprite has at column `x` of scanline `y`. -/
def spriteColor (s : State) (x y slot : Nat) : Nat :=
  let row := y - (record s slot 0).toNat
  let col := x - (record s slot 3).toNat
  patternColor s (if s.ctrl.getLsbD 3 then 0x1000 else 0) (record s slot 1).toNat
    (if (record s slot 2).getLsbD 7 then 7 - row else row) (if (record s slot 2).getLsbD 6 then 7 - col else col)

/-- The slot is an opaque match at column `x` of scanline `y`. -/
def opaqueAt (s : State) (x y slot : Nat) : Bool := covers s x y slot && decide (spriteColor s x y slot ≠ 0)

/-- The pixel of the 512 × 480 background that column `x` of scanline `y` shows: its X. -/
def bgX (s : State) (x : Nat) : Nat := (x + (256 * s.sxNt.toNat + s.sxFine.toNat)) % 512

/-- see `bgX`: its Y. -/
def bgY (s : State) (y : Nat) : Nat := (y + (240 * s.syNt.toNat + s.syFine.toNat)) % 480

/-- The half of `nametable_ram` that column uses: the X quadrant selects it, the Y quadrant does not. -/
def bgHalf (s : State) (x : Nat) : Nat := if 256 ≤ bgX s x then 1024 else 0

/-- The tile number of the background at column `x` of scanline `y`. -/
def bgTileNumber (s : State) (x y : Nat) : Byte :=
  s.nametable.read (bgHalf s x + 32 * (bgY s y / 8 % 30) + bgX s x / 8 % 32)

/-- The background's pattern colour there. -/
def bgColor (s : State) (x y : Nat) : Nat :=
  patternColor s (if s.ctrl.getLsbD 4 then 0x1000 else 0) (bgTileNumber s x y).toNat (bgY s y % 8) (bgX s x % 8)

/-- The background's two attribute bits there. -/
def bgAttr (s : State) (x y : Nat) : Nat :=
  let tx := bgX s x / 8 % 32
  let ty := bgY s y / 8 % 30
  (s.nametable.read (bgHalf s x + 0x3C0 + 8 * (ty / 4) + tx / 4)).toNat / 2 ^ (4 * (ty % 4 / 2) + 2 * (tx % 4 / 2)) % 4

/-- The byte of `frame` at component `c` (0 R, 1 G, 2 B) of the pixel at column `x`, row `y` (R218, D22). -/
def frameAt (s : State) (x y c : Nat) : Byte := s.frame.read (3 * (256 * y + x) + c)

/-- No 8×16 fault arises on scanline `y`: 8×8 sprites, or sprites disabled, or no slot on the scanline (R211, R215). A
slot on the scanline covers a column, its X field being one of 0..255. -/
def noTallSpriteOn (s : State) (y : Nat) : Prop :=
  s.ctrl.getLsbD 5 = false ∨ s.mask.getLsbD 4 = false ∨ qualifying s y = []

end Sys2Proof.Claims

open Sys2Proof.Claims

/-! ## Fetch, encoding and decoding -/

/-- The order of transactions is the host's (spec/20_memory.md section 7), and the block "does nothing between
transactions and loses nothing" (spec/60_exceptions.md section 5). That the host's next transaction stands at the head of
`inbox` and brings its pattern source, and that a step with none leaves the state alone, is the model's choice (log
entries 1, 2 and 6); that a reserved word is refused is spec/60_exceptions.md section 1 (D1, log entry 17). -/
def Obligations.StepPerformsTheNextTransaction : Prop :=
  (∀ s : State, s.inbox = [] → step s = .next s) ∧
  ∀ (s : State) (t : Transaction) (rest : List Transaction), s.inbox = t :: rest →
    (∀ i, decode t.word t.target = .ok i → step s = exec i { s with inbox := rest, chr := t.chr }) ∧
    (∀ e, decode t.word t.target = .error e → step s = .refused (.reservedWord e))

/-- Words printed in spec/30_encoding.md section 7 and spec/95_test_vectors.md (D1). -/
def Obligations.PrintedWordsDecode : Prop :=
  ∀ t : Cycles,
    decode 0x00080 t = .ok (.wCtrl 0x80) ∧ decode 0x00F80 t = .ok (.wData 0x80) ∧ decode 0x0063F t = .ok (.wAddr 0x3F) ∧
    decode 0x20200 t = .ok .rStatus ∧ decode 0x20700 t = .ok .rData ∧
    decode 0x40C32 t = .ok (.oamW 0x0C 0x32) ∧ decode 0x62000 t = .ok (.oamR 0x20) ∧
    decode 0x80000 t = .ok (.step t) ∧ decode 0xA0000 t = .ok .frame ∧
    decode 0xC0000 t = .error .portReserved ∧ decode 0x10000 t = .error .zBit ∧ decode 0x80001 t = .error .controlReserved

/-- spec/30_encoding.md sections 1 and 5 (D1): every instruction, at every operand and with its ignored bits at every
value, decodes back to itself. -/
def Obligations.DecodeEncodeRoundTrip : Prop :=
  ∀ (i : Instr) (aHigh : BitVec 5) (dLow : Byte),
    i.wellFormed = true → decode (encodeWith aHigh dLow i) (encodeTarget i) = .ok i

/-- spec/30_encoding.md sections 1 and 5 (D1): a word the decoder accepts is the encoding of what it answers, so the
only bits the decoder drops are `a[7:3]` of the register window and `d` of a load. -/
def Obligations.AcceptedWordIsAnEncoding : Prop :=
  ∀ (w : TWord) (t : Cycles) (i : Instr), decode w t = .ok i →
    encodeWith ((aField w).extractLsb' 3 5) (dField w) i = w ∧ (∀ u, i = .step u → u = t)

/-- spec/30_encoding.md section 5 (D1) and spec/opcode_table.json: the decoder answers a row's instruction exactly on
the words the row matches. -/
def Obligations.DecoderAgreesWithOpcodeTable : Prop :=
  ∀ row ∈ opcodeTable, ∀ (w : TWord) (t : Cycles),
    (∃ i, decode w t = .ok i ∧ i.mnemonic = row.mnemonic) ↔ w &&& row.care = row.value

/-- spec/30_encoding.md section 3 (D1): the reserved words are the three groups named there, and step refuses them
whatever the block's state is. -/
def Obligations.ReservedWordsAreRefused : Prop :=
  ∀ (s : State) (t : Transaction) (rest : List Transaction), s.inbox = t :: rest →
    ((∃ e, step s = .refused (.reservedWord e)) ↔
      (t.word.getLsbD 16 = true ∨ 0xC0000 ≤ t.word.toNat ∨
        (0x80000 ≤ t.word.toNat ∧ t.word.toNat < 0xC0000 ∧ t.word ≠ 0x80000#20 ∧ t.word ≠ 0xA0000#20)))

/-! ## Register stores -/

/-- spec/40_register_bank.md section 2, W.CTRL (D2, D8): ctrl is replaced and both nametable-select parts are
recomputed; nothing else changes. -/
def Obligations.StoreCtrl : Prop :=
  ∀ (d : Byte) (s : State), s.fault = none → ∃ t, exec (.wCtrl d) s = .next t ∧
    t = { s with ctrl := d, sxNt := t.sxNt, syNt := t.syNt, reply := .nothing } ∧
    t.sxNt.toNat = d.toNat % 2 ∧ t.syNt.toNat = d.toNat / 2 % 2 ∧
    scrollX t = 256 * (d.toNat % 2) + s.sxFine.toNat ∧ scrollY t = 240 * (d.toNat / 2 % 2) + s.syFine.toNat

/-- spec/40_register_bank.md section 2, W.MASK (D3). -/
def Obligations.StoreMask : Prop :=
  ∀ (d : Byte) (s : State), s.fault = none → exec (.wMask d) s = .next { s with mask := d, reply := .nothing }

/-- R113: "index 2 is read-only (store is a no-op)". -/
def Obligations.StoreStatusIsANoOp : Prop :=
  ∀ (a d : Byte), regIndex a = 2#3 → (∀ u, decode (storeWord a d) u = .ok (.wStatus d)) ∧
    ∀ s : State, s.fault = none → exec (.wStatus d) s = .next { s with reply := .nothing }

/-- R114: "index 3 sets oam_addr". -/
def Obligations.StoreOamAddr : Prop :=
  ∀ (a d : Byte), regIndex a = 3#3 → (∀ u, decode (storeWord a d) u = .ok (.wOamaddr d)) ∧
    ∀ s : State, s.fault = none → exec (.wOamaddr d) s = .next { s with oamAddr := d, reply := .nothing }

/-- R115: "index 4 writes the OAM byte at oam_addr then increments oam_addr (wrapping at 256)". Every other OAM byte
reads as before. -/
def Obligations.StoreOamData : Prop :=
  ∀ (a d : Byte), regIndex a = 4#3 → (∀ u, decode (storeWord a d) u = .ok (.wOamdata d)) ∧
    ∀ s : State, s.fault = none → ∃ t, exec (.wOamdata d) s = .next t ∧
      t = { s with oam := t.oam, oamAddr := t.oamAddr, reply := .nothing } ∧
      t.oamAddr.toNat = (s.oamAddr.toNat + 1) % 256 ∧
      ∀ i, t.oam.read i = if i = s.oamAddr.toNat then d else s.oam.read i

/-- spec/40_register_bank.md section 2, W.SCROLL (D8): the half the latch names, with the fine part of that
accumulator; the select parts and the address latch stay. -/
def Obligations.StoreScroll : Prop :=
  ∀ (d : Byte) (s : State), s.fault = none →
    (s.scroll.next = .x → exec (.wScroll d) s =
      .next { s with scroll := { x := d, y := s.scroll.y, next := .y }, sxFine := d, reply := .nothing }) ∧
    (s.scroll.next = .y → exec (.wScroll d) s =
      .next { s with scroll := { x := s.scroll.x, y := d, next := .x }, syFine := d, reply := .nothing })

/-- spec/40_register_bank.md section 2, W.ADDR (D8, D9): the Hi store replaces bits 15:8 and keeps 7:0, the Lo store
replaces 7:0 and keeps 15:8 and copies bit 10 of the new value into `sx_nt`. -/
def Obligations.StoreAddr : Prop :=
  ∀ (d : Byte) (s : State), s.fault = none → ∃ t, exec (.wAddr d) s = .next t ∧
    (s.addr.next = .hi → t = { s with addr := { val := t.addr.val, next := .lo }, reply := .nothing } ∧
      t.addr.val.toNat = 256 * d.toNat + s.addr.val.toNat % 256) ∧
    (s.addr.next = .lo → t = { s with addr := { val := t.addr.val, next := .hi }, sxNt := t.sxNt, reply := .nothing } ∧
      t.addr.val.toNat = 256 * (s.addr.val.toNat / 256) + d.toNat ∧ t.sxNt.toNat = t.addr.val.toNat / 1024 % 2)

/-- spec/40_register_bank.md section 2, W.DATA, below 0x4000 (D2, D9, D10, D11): the cell the address names takes the
byte, six bits of it in the palette; every other cell of both stores reads as before, a pattern address stores
nothing; then the address advances by 1 or 32. -/
def Obligations.StoreDataWritesItsCellAndAdvances : Prop :=
  ∀ (d : Byte) (s : State), s.fault = none → s.addr.val.toNat < 0x4000 → ∃ t, exec (.wData d) s = .next t ∧
    t = { s with nametable := t.nametable, palette := t.palette, addr := t.addr, reply := .nothing } ∧
    t.addr.next = s.addr.next ∧
    t.addr.val.toNat = s.addr.val.toNat + (if s.ctrl.getLsbD 2 then 32 else 1) ∧
    (∀ i, t.nametable.read i =
      if 0x2000 ≤ s.addr.val.toNat ∧ s.addr.val.toNat < 0x3F00 ∧ i = s.addr.val.toNat % 2048 then d
      else s.nametable.read i) ∧
    (∀ i, (t.palette.read i).toNat =
      if 0x3F00 ≤ s.addr.val.toNat ∧ i = (if s.addr.val.toNat % 32 = 16 then 0 else s.addr.val.toNat % 32)
      then d.toNat % 64 else (s.palette.read i).toNat)

/-- spec/60_exceptions.md section 1 (D10, D24): a data store or load at an address from 0x4000 on raises
`FAULT_VRAM_RANGE` with the address and the direction, changes nothing else, and halts the block. -/
def Obligations.DataAccessFrom4000Halts : Prop :=
  ∀ (d : Byte) (s : State), s.fault = none → 0x4000 ≤ s.addr.val.toNat →
    exec (.wData d) s = .next { s with
      fault := some (.vramRange s.addr.val .store)
      reply := .fault (.vramRange s.addr.val .store) } ∧
    exec .rData s = .next { s with
      fault := some (.vramRange s.addr.val .load)
      reply := .fault (.vramRange s.addr.val .load) }

/-! ## Register loads -/

/-- R119 and R120: "index 0/1 return the raw ctrl/mask byte". -/
def Obligations.LoadCtrlAndMask : Prop :=
  ∀ (a d : Byte), (regIndex a = 0#3 → ∀ u, decode (loadWord a d) u = .ok .rCtrl) ∧
    (regIndex a = 1#3 → ∀ u, decode (loadWord a d) u = .ok .rMask) ∧
    ∀ s : State, s.fault = none →
      exec .rCtrl s = .next { s with reply := .byte s.ctrl } ∧ exec .rMask s = .next { s with reply := .byte s.mask }

/-- spec/40_register_bank.md section 3, R.STATUS (D4, D13): the three flags are returned with bits 4:0 zero, no flag is
cleared, and both latches go to their first-write state and keep their values. -/
def Obligations.LoadStatus : Prop :=
  ∀ s : State, s.fault = none → ∃ v : Byte, v.toNat = 32 * (s.status.toNat / 32) ∧
    exec .rStatus s = .next { s with
      scroll := { s.scroll with next := .x }
      addr := { s.addr with next := .hi }
      reply := .byte v }

/-- R122, R124 and R125: "index 3 and 5 and 6 return 0 (write-only registers)". -/
def Obligations.WriteOnlyRegistersLoadZero : Prop :=
  ∀ (a d : Byte), (regIndex a = 3#3 → ∀ u, decode (loadWord a d) u = .ok .rOamaddr) ∧
    (regIndex a = 5#3 → ∀ u, decode (loadWord a d) u = .ok .rScroll) ∧
    (regIndex a = 6#3 → ∀ u, decode (loadWord a d) u = .ok .rAddr) ∧
    ∀ s : State, s.fault = none →
      exec .rOamaddr s = .next { s with reply := .byte 0x00#8 } ∧
      exec .rScroll s = .next { s with reply := .byte 0x00#8 } ∧ exec .rAddr s = .next { s with reply := .byte 0x00#8 }

/-- R123 and R263: "index 4 is unimplemented and must fail loudly": the load always raises `NOTIMPL_OAMDATA_READ` with the OAM
cursor, changes no other state, and the block halts: no transaction has a step after it. -/
def Obligations.LoadOamDataAlwaysFaults : Prop :=
  ∀ (a d : Byte), regIndex a = 4#3 → (∀ u, decode (loadWord a d) u = .ok .rOamdata) ∧
    ∀ s : State, s.fault = none → ∃ t, exec .rOamdata s = .next t ∧
      t = { s with fault := some (.oamdataRead s.oamAddr), reply := .fault (.oamdataRead s.oamAddr) } ∧
      ∀ i, exec i t = .fault (.halted (.oamdataRead s.oamAddr))

/-- spec/40_register_bank.md section 3, R.DATA, below 0x4000 (D2, D9, D12): below 0x3F00 the old buffer is returned and
the byte fetched replaces it, from 0x3F00 on the byte fetched is returned and the buffer stays; the address advances
in both cases, and the latch selector and both stores stay. -/
def Obligations.LoadDataThroughTheReadBuffer : Prop :=
  ∀ s : State, s.fault = none → s.addr.val.toNat < 0x4000 → ∃ (v : Byte) (next : VramAddr),
    vramLoad s s.addr.val = .ok v ∧ next.toNat = s.addr.val.toNat + (if s.ctrl.getLsbD 2 then 32 else 1) ∧
    (s.addr.val.toNat < 0x3F00 → exec .rData s = .next { s with
      addr := { s.addr with val := next }
      dataBuf := v
      reply := .byte s.dataBuf }) ∧
    (0x3F00 ≤ s.addr.val.toNat → exec .rData s = .next { s with
      addr := { s.addr with val := next }
      reply := .byte v })

/-- spec/70_reset_and_hazards.md section 3 (D12): two loads of consecutive addresses below 0x3F00; the second returns
the byte of the first address. -/
def Obligations.SecondDataLoadReturnsTheFirstByte : Prop :=
  ∀ (s : State) (v : Byte), s.fault = none → s.addr.val.toNat + (if s.ctrl.getLsbD 2 then 32 else 1) < 0x3F00 →
    vramLoad s s.addr.val = .ok v →
    ∃ t, execAll [.rData, .rData] s = .next t ∧ t.reply = .byte v

/-! ## VRAM and OAM -/

/-- R61: the VRAM decoder of a load. A load changes no state, being a function of it. -/
def Obligations.VramLoadDecodesItsAddress : Prop :=
  ∀ (s : State) (a : VramAddr),
    (a.toNat < 0x2000 → vramLoad s a = .ok (s.chr.read a.toNat)) ∧
    (0x2000 ≤ a.toNat → a.toNat < 0x3F00 → vramLoad s a = .ok (s.nametable.read (a.toNat % 2048))) ∧
    (0x3F00 ≤ a.toNat → a.toNat < 0x4000 → ∃ v : Byte, vramLoad s a = .ok v ∧
      v.toNat = (s.palette.read (a.toNat % 32)).toNat) ∧
    (0x4000 ≤ a.toNat → vramLoad s a = .error (.vramRange a .load))

/-- spec/20_memory.md section 2, the mirroring property the spec derives from its nametable rule (S1 of
spec/95_test_vectors.md): a store and a load at the address with bit 11 inverted meet in one cell, and every other cell
of the nametable region loads as before. -/
def Obligations.NametableStoresMirrorAtBit11 : Prop :=
  ∀ (s t : State) (a : VramAddr) (v : Byte), 0x2000 ≤ a.toNat → a.toNat < 0x3F00 → vramStore s a v = .ok t →
    (0x2000 ≤ (a ^^^ 0x800#16).toNat → (a ^^^ 0x800#16).toNat < 0x3F00 → vramLoad t (a ^^^ 0x800#16) = .ok v) ∧
    (∀ b : VramAddr, b.toNat % 2048 ≠ a.toNat % 2048 ∨ b.toNat < 0x2000 ∨ 0x3F00 ≤ b.toNat → vramLoad t b = vramLoad s b)

/-- spec/20_memory.md section 2 (D11, D21): a palette store whose cell index is 0x10 is written to cell 0x00; every other index, 0x14, 0x18 and 0x1C among
them, is its own cell, and no other cell changes; so no store changes cell 0x10, which a load of index 0x10 reads and
whose reset value is 0. Six bits of the byte are kept. -/
def Obligations.PaletteStoreRedirect : Prop :=
  (∀ (s t : State) (a : VramAddr) (v : Byte), 0x3F00 ≤ a.toNat → a.toNat < 0x4000 → vramStore s a v = .ok t →
    t = { s with palette := t.palette } ∧
    (∀ i, (t.palette.read i).toNat =
      if i = (if a.toNat % 32 = 0x10 then 0x00 else a.toNat % 32) then v.toNat % 64 else (s.palette.read i).toNat) ∧
    t.palette.read 0x10 = s.palette.read 0x10 ∧
    (∀ b : VramAddr, 0x3F00 ≤ b.toNat → b.toNat < 0x4000 → b.toNat % 32 = 0x10 →
      vramLoad t b = .ok ((s.palette.read 0x10).setWidth 8))) ∧
  ∀ p : Params, (State.construct p).palette.read 0x10 = 0

/-- R69: `OamLoad(i)` returns `oam[i]` and `OamStore(i, v)` sets `oam[i] <- v`, and neither faults; nothing but the byte
stored changes. -/
def Obligations.OamLoadAfterOamStore : Prop :=
  ∀ (s : State) (i j v : Byte), oamLoad (oamStore s i v) j = (if j = i then v else oamLoad s j) ∧
    oamLoad s j = s.oam.read j.toNat ∧ oamStore s i v = { s with oam := (oamStore s i v).oam }

/-- spec/41_external_ports.md, OAM.W and OAM.R (D31): the byte is stored at the index given, and read back; `oam_addr`
and the latches take no part. -/
def Obligations.OamPort : Prop :=
  ∀ (a d : Byte) (s : State), s.fault = none →
    (∃ t, exec (.oamW a d) s = .next t ∧ t = { s with oam := t.oam, reply := .nothing } ∧
      ∀ i, t.oam.read i = if i = a.toNat then d else s.oam.read i) ∧
    exec (.oamR a) s = .next { s with reply := .byte (s.oam.read a.toNat) }

/-- spec/41_external_ports.md, FRAME (D22): the frame buffer's 184320 bytes in address order, and nothing changes. That
the reply holds them as the store's contents is the model's form (log entry 16). -/
def Obligations.FrameRead : Prop :=
  ∀ s : State, s.fault = none → exec .frame s = .next { s with reply := .frame s.frame } ∧
    (frameBytes s.frame).length = 184320 ∧ ∀ j < 184320, (frameBytes s.frame)[j]? = some (s.frame.read j)

/-! ## The latches -/

/-- R45: the status load resets both latches to their first-write state; a scroll store never changes `addr.next` and an
addr store never changes `scroll.next`. -/
def Obligations.LatchesResetTogetherAndStayIndependent : Prop :=
  (∀ s t : State, exec .rStatus s = .next t → t.scroll.next = .x ∧ t.addr.next = .hi) ∧
  (∀ (d : Byte) (s t : State), exec (.wScroll d) s = .next t → t.addr.next = s.addr.next) ∧
  (∀ (d : Byte) (s t : State), exec (.wAddr d) s = .next t → t.scroll.next = s.scroll.next)

/-- spec/70_reset_and_hazards.md section 3 (S4 of spec/95_test_vectors.md; D8): after a status load the next two scroll
stores land in X then Y and the next two addr stores in Hi then Lo, however the latches stood; everything else but
the accumulators stays. -/
def Obligations.StoresAfterStatusLoadLandInOrder : Prop :=
  ∀ (s : State) (x y h l : Byte), s.fault = none → ∃ t,
    execAll [.rStatus, .wScroll x, .wScroll y, .wAddr h, .wAddr l] s = .next t ∧
    t = { s with
      scroll := { x := x, y := y, next := .x }
      addr := { val := h ++ l, next := .hi }
      sxFine := x
      syFine := y
      sxNt := t.sxNt
      reply := .nothing } ∧
    t.sxNt.toNat = h.toNat / 4 % 2

/-! ## Pseudo-transactions -/

/-- spec/30_encoding.md section 6, SETADDR (D36): it "leaves `addr.val = v16`, `addr.next = Hi`, `sx_nt = v16[10]`". -/
def Obligations.SetAddr : Prop :=
  ∀ (s : State) (v : VramAddr), s.fault = none → ∃ t, execPseudo (.setAddr v) s = .next t ∧
    t = { s with
      scroll := { s.scroll with next := .x }
      addr := { val := v, next := .hi }
      sxNt := t.sxNt
      reply := .nothing } ∧
    t.sxNt.toNat = v.toNat / 1024 % 2

/-- spec/30_encoding.md section 6, SPRITE (D36): the four bytes of the slot's record, and no other OAM byte; the cursor
stands after them. -/
def Obligations.SpriteWritesItsRecord : Prop :=
  ∀ (s : State) (slot : Nat) (y tile attr x : Byte), s.fault = none → (Pseudo.sprite slot y tile attr x).wellFormed = true →
    ∃ t, execPseudo (.sprite slot y tile attr x) s = .next t ∧
      t = { s with oam := t.oam, oamAddr := t.oamAddr, reply := .nothing } ∧
      t.oamAddr.toNat = (4 * slot + 4) % 256 ∧
      record t slot 0 = y ∧ record t slot 1 = tile ∧ record t slot 2 = attr ∧ record t slot 3 = x ∧
      ∀ i, i < 4 * slot ∨ 4 * slot + 4 ≤ i → t.oam.read i = s.oam.read i

/-- spec/30_encoding.md section 6, DMA (D31, D36): the whole of OAM becomes the page, and nothing else changes. -/
def Obligations.DmaFillsOam : Prop :=
  ∀ (s : State) (page : List Byte), s.fault = none → (Pseudo.dma page).wellFormed = true →
    ∃ t, execPseudo (.dma page) s = .next t ∧ t = { s with oam := t.oam, reply := .nothing } ∧
      ∀ i < 256, page[i]? = some (t.oam.read i)

/-! ## Whole-machine rules -/

/-- spec/10_state.md (D21, D31 and the decisions its rules name): what writes each element. After a transaction that did
not halt a STEP: ctrl and mask change only by their own store, status, scanline, cy and frame only by STEP, the OAM
cursor only by its store and the OAM data store, OAM only by the two OAM stores, each latch and accumulator only by the
transactions named for it, the read buffer only by the data load, nametable and palette only by the data store; and the
construction parameters by nothing. -/
def Obligations.WritersOfEachElement : Prop :=
  ∀ (i : Instr) (s t : State), exec i s = .next t → stepFaulted t = false →
    (t.ctrl ≠ s.ctrl → ∃ d, i = .wCtrl d) ∧ (t.mask ≠ s.mask → ∃ d, i = .wMask d) ∧
    (t.status ≠ s.status ∨ t.scanline ≠ s.scanline ∨ t.cy ≠ s.cy ∨ t.frame ≠ s.frame → ∃ u, i = .step u) ∧
    (t.oamAddr ≠ s.oamAddr → ∃ d, i = .wOamaddr d ∨ i = .wOamdata d) ∧
    (t.oam ≠ s.oam → ∃ a d, i = .wOamdata d ∨ i = .oamW a d) ∧
    (t.scroll ≠ s.scroll → ∃ d, i = .wScroll d ∨ i = .rStatus) ∧
    (t.addr ≠ s.addr → ∃ d, i = .wAddr d ∨ i = .wData d ∨ i = .rData ∨ i = .rStatus) ∧
    (t.sxFine ≠ s.sxFine ∨ t.syFine ≠ s.syFine → ∃ d, i = .wScroll d) ∧
    (t.sxNt ≠ s.sxNt → ∃ d, i = .wCtrl d ∨ i = .wAddr d) ∧ (t.syNt ≠ s.syNt → ∃ d, i = .wCtrl d) ∧
    (t.dataBuf ≠ s.dataBuf → i = .rData) ∧
    (t.nametable ≠ s.nametable ∨ t.palette ≠ s.palette → ∃ d, i = .wData d) ∧
    t.params = s.params ∧ t.chr = s.chr ∧ t.inbox = s.inbox

/-- spec/60_exceptions.md section 1 (D24): "while `fault ≠ none` it accepts no transaction of any port". -/
def Obligations.HaltedBlockHasNoStep : Prop :=
  ∀ (s : State) (r : FaultRecord), s.fault = some r → ∀ i, exec i s = .fault (.halted r)

/-- spec/60_exceptions.md sections 1 and 3 (D24, D33): a block that is not halted performs every transaction, in every
state. -/
def Obligations.RunningBlockPerformsEveryTransaction : Prop :=
  ∀ (s : State) (i : Instr), s.fault = none → ∃ t, exec i s = .next t

/-- spec/60_exceptions.md section 1 (D10, D24, D34) and the property spec/20_memory.md section 6 derives: a fault is
raised by a data access from 0x4000 on, by the OAM data load, or by a STEP rendering in 8×16 mode with sprites enabled,
and by nothing else: rendering never raises `FAULT_VRAM_RANGE`, and `FAULT_REG_INDEX` is never raised. The STEP's fault
names a visible scanline it passes, the lowest column there that a listed sprite covers, and the first such sprite in
list order. The transaction returns the fault it raised. -/
def Obligations.FaultsAreRaisedOnlyWhereNamed : Prop :=
  ∀ (i : Instr) (s t : State) (r : FaultRecord), exec i s = .next t → t.fault = some r →
    t.reply = .fault r ∧
    ((∃ d, i = .wData d ∧ 0x4000 ≤ s.addr.val.toNat ∧ r = .vramRange s.addr.val .store) ∨
     (i = .rData ∧ 0x4000 ≤ s.addr.val.toNat ∧ r = .vramRange s.addr.val .load) ∨
     (i = .rOamdata ∧ r = .oamdataRead s.oamAddr) ∨
     (∃ u y x slot, i = .step u ∧ r = .sprite8x16 y x slot ∧ y < 240 ∧ x < 256 ∧ slot < 64 ∧
       s.ctrl.getLsbD 5 = true ∧ s.mask.getLsbD 4 = true ∧
       (∃ j, j < (u.toNat - s.cy.toNat) / s.params.q ∧ y = (s.scanline + j) % s.params.n) ∧
       (selected s y).find? (covers s x y) = some slot ∧
       ∀ x' < x, ∀ k ∈ selected s y, covers s x' y k = false))

/-- spec/60_exceptions.md section 2 (D15, D28): only a STEP requests an NMI, and only with `ctrl[7]` set. -/
def Obligations.OnlyStepRequestsAnNmi : Prop :=
  ∀ (i : Instr) (s t : State) (fc : Bool), exec i s = .next t → t.reply = .stepped fc true →
    s.ctrl.getLsbD 7 = true ∧ ∃ u, i = .step u

/-- spec/10_state.md section 4 (D4, D14): nothing clears the overflow flag. -/
def Obligations.OverflowIsNeverCleared : Prop :=
  ∀ (i : Instr) (s t : State), exec i s = .next t → stepFaulted t = false → s.status.getLsbD 5 = true →
    t.status.getLsbD 5 = true

/-! ## STEP and the timing machine -/

/-- spec/44_timing.md section 1 (D28): a target below `cy + Q` runs no iteration and is no error. -/
def Obligations.StepBelowTheBoundaryDoesNothing : Prop :=
  ∀ (s : State) (target : Cycles), s.fault = none → target.toNat < s.cy.toNat + s.params.q →
    exec (.step target) s = .next { s with reply := .stepped false false }

/-- spec/44_timing.md section 1 (D17–D20, D28), one iteration on a scanline that is not visible: the scanline advances,
at V vblank is entered and the NMI requested if enabled, at N the frame completes; overflow and everything else stay. -/
def Obligations.OneBlankScanline : Prop :=
  ∀ (s : State) (target : Cycles), s.fault = none → 240 ≤ s.scanline → s.scanline < s.params.n →
    s.cy.toNat + s.params.q ≤ target.toNat → target.toNat < s.cy.toNat + 2 * s.params.q →
    ∃ t, exec (.step target) s = .next t ∧
      t = { s with
        status := t.status
        scanline := if s.scanline + 1 = s.params.n then 0 else s.scanline + 1
        cy := t.cy
        reply := .stepped (decide (s.scanline + 1 = s.params.n))
          (decide (s.scanline + 1 = s.params.v) && s.ctrl.getLsbD 7) } ∧
      t.cy.toNat = s.cy.toNat + s.params.q ∧
      t.status.getLsbD 7 = (if s.scanline + 1 = s.params.v then true
        else if s.scanline + 1 = s.params.n then false else s.status.getLsbD 7) ∧
      t.status.getLsbD 6 = (if s.scanline + 1 = s.params.v then false else s.status.getLsbD 6) ∧
      ∀ b < 6, t.status.getLsbD b = s.status.getLsbD b

/-- spec/44_timing.md section 1 and spec/43_pixel_pipeline.md section 5 (D14, D20, D22, D26, D34), one iteration on a
visible scanline that meets no 8×16 fault: every pixel of the row is the pipeline's, every other byte of the frame buffer stays,
overflow is set exactly when nine slots qualify, sprite-zero hit exactly when a column hits, and nothing else but the
scanline and `cy` changes. Where V is 240 the last visible row also enters vblank. -/
def Obligations.OneVisibleScanline : Prop :=
  ∀ (s : State) (target : Cycles), s.fault = none → s.scanline < 240 → noTallSpriteOn s s.scanline →
    s.cy.toNat + s.params.q ≤ target.toNat → target.toNat < s.cy.toNat + 2 * s.params.q →
    ∃ t, exec (.step target) s = .next t ∧
      t = { s with
        status := t.status
        frame := t.frame
        scanline := s.scanline + 1
        cy := t.cy
        reply := .stepped false (decide (s.scanline + 1 = s.params.v) && s.ctrl.getLsbD 7) } ∧
      t.cy.toNat = s.cy.toNat + s.params.q ∧
      (∀ x < 256, ∃ p, pixel s (selected s s.scanline) x s.scanline = .ok p ∧
        frameAt t x s.scanline 0 = p.rgb.r ∧ frameAt t x s.scanline 1 = p.rgb.g ∧ frameAt t x s.scanline 2 = p.rgb.b) ∧
      (∀ j, j < 768 * s.scanline ∨ 768 * (s.scanline + 1) ≤ j → t.frame.read j = s.frame.read j) ∧
      t.status.getLsbD 7 = (decide (s.scanline + 1 = s.params.v) || s.status.getLsbD 7) ∧
      (t.status.getLsbD 6 = true ↔ s.scanline + 1 ≠ s.params.v ∧ (s.status.getLsbD 6 = true ∨
        ∃ x < 256, ∃ p, pixel s (selected s s.scanline) x s.scanline = .ok p ∧ p.zeroHit = true)) ∧
      t.status.getLsbD 5 = (s.status.getLsbD 5 || decide (9 ≤ (qualifying s s.scanline).length)) ∧
      ∀ b < 5, t.status.getLsbD b = s.status.getLsbD b

/-- spec/44_timing.md (D17–D19, D28): where a whole STEP that meets no 8×16 fault on the k scanlines it passes arrives
(D34). With k the number of quanta that fit, `cy` grows by k·Q, the scanline by k modulo N, `frame_completed` says
whether N was reached and `nmi_requested` whether V was, with the NMI enabled; vblank is set exactly on scanlines
V..N−1. -/
def Obligations.StepArrivesAtItsTarget : Prop :=
  ∀ (s : State) (target : Cycles) (k : Nat), s.fault = none → s.scanline < s.params.n →
    (∀ j < k, (s.scanline + j) % s.params.n < 240 → noTallSpriteOn s ((s.scanline + j) % s.params.n)) →
    s.status.getLsbD 7 = decide (s.params.v ≤ s.scanline) → k = (target.toNat - s.cy.toNat) / s.params.q →
    ∃ t, exec (.step target) s = .next t ∧ t.fault = none ∧
      t.cy.toNat = s.cy.toNat + k * s.params.q ∧ target.toNat < t.cy.toNat + s.params.q ∧
      t.scanline = (s.scanline + k) % s.params.n ∧
      t.status.getLsbD 7 = decide (s.params.v ≤ t.scanline) ∧
      t.reply = .stepped (decide (s.params.n ≤ s.scanline + k))
        (s.ctrl.getLsbD 7 && decide ((if s.scanline < s.params.v then 0 else s.params.n) + s.params.v ≤ s.scanline + k))

/-- spec/44_timing.md section 2 (D17–D19, D28, D34; S6 of spec/95_test_vectors.md): one whole frame from its top, no
visible scanline of which meets an 8×16 fault. A STEP to the V-th boundary enters vblank and completes no frame, a
STEP from there to the N-th completes it and requests no NMI, and one STEP over all of it reports both. -/
def Obligations.OneWholeFrame : Prop :=
  ∀ (s : State) (tv tn : Cycles), s.fault = none → s.scanline = 0 → (∀ y < 240, noTallSpriteOn s y) →
    tv.toNat = s.cy.toNat + s.params.v * s.params.q → tn.toNat = s.cy.toNat + s.params.n * s.params.q →
    ∃ t u w, exec (.step tv) s = .next t ∧ t.reply = .stepped false (s.ctrl.getLsbD 7) ∧ t.scanline = s.params.v ∧
      t.status.getLsbD 7 = true ∧ t.status.getLsbD 6 = false ∧
      exec (.step tn) t = .next u ∧ u.reply = .stepped true false ∧ u.scanline = 0 ∧ u.status.getLsbD 7 = false ∧
      u.cy = tn ∧
      exec (.step tn) s = .next w ∧ w.reply = .stepped true (s.ctrl.getLsbD 7) ∧ w = { u with reply := w.reply }

/-- spec/44_timing.md section 2, the property the spec derives (D28): splitting a STEP leaves the same state, and the two
results together report what the one reports. -/
def Obligations.SplittingAStepLeavesTheSameState : Prop :=
  ∀ (s u w : State) (t1 t2 : Cycles), t1.toNat ≤ t2.toNat →
    exec (.step t1) s = .next u → u.fault = none → exec (.step t2) u = .next w → w.fault = none →
    ∃ v f1 n1 f2 n2, exec (.step t2) s = .next v ∧ u.reply = .stepped f1 n1 ∧ w.reply = .stepped f2 n2 ∧
      v = { w with reply := .stepped (f1 || f2) (n1 || n2) }

/-- spec/20_memory.md sections 6 and 7 and spec/44_timing.md: a STEP that does not halt the block changes nothing but
status, frame, scanline and `cy`: it never writes VRAM, OAM or a register the host writes. -/
def Obligations.StepKeepsRegistersAndStores : Prop :=
  ∀ (s t : State) (target : Cycles), exec (.step target) s = .next t → stepFaulted t = false →
    t = { s with status := t.status, frame := t.frame, scanline := t.scanline, cy := t.cy, reply := t.reply } ∧
    ∀ b < 5, t.status.getLsbD b = s.status.getLsbD b

/-- spec/43_pixel_pipeline.md section 3 and spec/60_exceptions.md section 1 (D24, D34): in 8×16 mode with sprites enabled, a visible
scanline on which a selected sprite covers a column halts the block at the lowest such column, for the first
such sprite in list order; the STEP returns the fault. -/
def Obligations.TallSpriteHaltsAtTheFirstCoveredColumn : Prop :=
  ∀ (s : State) (target : Cycles) (x slot : Nat), s.fault = none → s.scanline < 240 →
    s.ctrl.getLsbD 5 = true → s.mask.getLsbD 4 = true → s.cy.toNat + s.params.q ≤ target.toNat → x < 256 →
    (selected s s.scanline).find? (covers s x s.scanline) = some slot →
    (∀ x' < x, ∀ k ∈ selected s s.scanline, covers s x' s.scanline k = false) →
    ∃ t, exec (.step target) s = .next t ∧ t.fault = some (.sprite8x16 s.scanline x slot) ∧
      t.reply = .fault (.sprite8x16 s.scanline x slot)

/-! ## Sprites -/

/-- R170, R173 and R174: the record's four bytes, "low 2 bits of attribute + 4 (sprite palettes occupy banks 4–7)", and
`attr[5]`. -/
def Obligations.SpriteRecordFields : Prop :=
  ∀ (s : State) (slot : Nat), slot < 64 →
    sprite s slot = ⟨s.oam.read (4 * slot), s.oam.read (4 * slot + 1), s.oam.read (4 * slot + 2), s.oam.read (4 * slot + 3)⟩ ∧
    (sprite s slot).paletteBank = (s.oam.read (4 * slot + 2)).toNat % 4 + 4 ∧
    ((sprite s slot).behind = true ↔ (s.oam.read (4 * slot + 2)).toNat / 32 % 2 = 1)

/-- R182: the evaluator selects the first eight qualifying slots in ascending order; a ninth sets `status.OVF` when the
scanline is rendered, and without one the flag is unchanged. -/
def Obligations.EvaluatorSelectsTheFirstEight : Prop :=
  ∀ (s : State) (y : Nat),
    (evaluate s y).slots = selected s y ∧ (evaluate s y).ninth = decide (9 ≤ (qualifying s y).length) ∧
    ((renderScanline y s).fault = none → statusOvf (renderScanline y s) = (statusOvf s || decide (9 ≤ (qualifying s y).length)))

/-- R184: the X field, the attribute, the tile, the pattern data and the mask enables do not matter to what qualifies:
two states that agree on the Y fields and the sprite size evaluate alike. -/
def Obligations.OnlyTheYFieldQualifies : Prop :=
  ∀ (s t : State) (y : Nat), (∀ slot < 64, t.oam.read (4 * slot) = s.oam.read (4 * slot)) →
    t.ctrl.getLsbD 5 = s.ctrl.getLsbD 5 → evaluate t y = evaluate s y

/-- spec/43_pixel_pipeline.md section 3 (D5, D6, D38): in 8×8 mode a transparent pixel of a covering sprite lets the walk
go on to the next slot of the list, so the walk's answer is the first slot that covers the column with a colour other
than 0, or none. -/
def Obligations.TransparentSpritesLetTheWalkGoOn : Prop :=
  ∀ (s : State) (list : List Nat) (x y : Nat) (bg : Bool), s.ctrl.getLsbD 5 = false → (∀ slot ∈ list, slot < 64) →
    ∃ r, spritePixel s x y bg list = .ok r ∧
      (∀ hit, r = some hit ↔ ∃ slot, list.find? (opaqueAt s x y) = some slot ∧
        hit.index.toNat = 4 * ((record s slot 2).toNat % 4 + 4) + spriteColor s x y slot ∧
        hit.behind = (record s slot 2).getLsbD 5 ∧ hit.zeroHit = (decide (slot = 0) && bg))

/-- R213: rendering a scanline sets `status.S0HIT` exactly when, at some column 0..255, both layers are enabled, the
background is opaque and OAM slot 0 is the first opaque match, whatever its priority bit; else the flag is unchanged. -/
def Obligations.SpriteZeroHit : Prop :=
  ∀ (s : State) (y : Nat), noTallSpriteOn s y →
    (statusS0hit (renderScanline y s) = true ↔ statusS0hit s = true ∨
      ∃ x < 256, s.mask.getLsbD 3 = true ∧ s.mask.getLsbD 4 = true ∧ bgColor s x y ≠ 0 ∧
        (selected s y).find? (opaqueAt s x y) = some 0)

/-! ## Pixels -/

/-- spec/43_pixel_pipeline.md section 2 (D2, D6, D7, D8, D39): the background of a column read straight from the cells:
transparent when the pattern colour is 0, else palette index `(attribute << 2) | pattern`. -/
def Obligations.BackgroundPixel : Prop :=
  ∀ (s : State) (x y : Nat),
    (bgColor s x y = 0 → background s x y = .ok none) ∧
    (bgColor s x y ≠ 0 → ∃ i : BitVec 5, background s x y = .ok (some i) ∧ i.toNat = 4 * bgAttr s x y + bgColor s x y)

/-- spec/43_pixel_pipeline.md sections 1 to 4 (D3, D16; log entry 19): a pixel from its two layers. With `mask[3]` set the
background is that of BackgroundPixel, else none; with `mask[4]` set the sprite result is the walk of
TransparentSpritesLetTheWalkGoOn over the list, else none. The compositor's five cases follow, the backdrop being palette
index 0; the RGB triple is the table entry of the palette cell the index names. That layers are palette indices, looked
up once, is the model's inference (log entry 19). -/
def Obligations.CompositePixel : Prop :=
  ∀ (s : State) (list : List Nat) (x y : Nat) (bg : Option (BitVec 5)) (sp : Option SpriteHit),
    (s.mask.getLsbD 3 = true → background s x y = .ok bg) → (s.mask.getLsbD 3 = false → bg = none) →
    (s.mask.getLsbD 4 = true → spritePixel s x y bg.isSome list = .ok sp) → (s.mask.getLsbD 4 = false → sp = none) →
    ∃ p, pixel s list x y = .ok p ∧ p.rgb = tableRgb s (s.palette.read p.index.toNat) ∧
      p.zeroHit = sp.any (·.zeroHit) ∧
      (bg = none → sp = none → p.index = 0#5) ∧ (∀ b, bg = some b → sp = none → p.index = b) ∧
      (∀ h, bg = none → sp = some h → p.index = h.index) ∧
      (∀ b h, bg = some b → sp = some h → p.index = if h.behind then b else h.index)

/-- spec/43_pixel_pipeline.md section 5 and spec/10_state.md sections 2 and 3 (D2, D3): a pixel depends on no bit of ctrl
but 3, 4 and 5 and on no bit of mask but 3 and 4. -/
def Obligations.OtherCtrlAndMaskBitsChangeNoPixel : Prop :=
  ∀ (s : State) (c m : Byte) (list : List Nat) (x y : Nat),
    (∀ b, 3 ≤ b → b ≤ 5 → c.getLsbD b = s.ctrl.getLsbD b) → (∀ b, 3 ≤ b → b ≤ 4 → m.getLsbD b = s.mask.getLsbD b) →
    pixel { s with ctrl := c, mask := m } list x y = pixel s list x y

/-- spec/70_reset_and_hazards.md section 2 (D3): with both layers disabled every pixel is the backdrop and none sets
sprite-zero hit, in 8×16 mode too. -/
def Obligations.DisabledLayersShowTheBackdrop : Prop :=
  ∀ (s : State) (list : List Nat) (x y : Nat), s.mask.getLsbD 3 = false → s.mask.getLsbD 4 = false →
    pixel s list x y = .ok ⟨0#5, tableRgb s (s.palette.read 0), false⟩

/-! ## Reset, stores and the invariant -/

/-- spec/70_reset_and_hazards.md section 1 (D21): the construction state, for every choice of the parameters; every cell of
every store reads 0. -/
def Obligations.ConstructionState : Prop :=
  ∀ p : Params, let s := State.construct p
    s.params = p ∧ s.ctrl = 0 ∧ s.mask = 0 ∧ s.status = 0 ∧ s.oamAddr = 0 ∧ s.scroll = ⟨0, 0, .x⟩ ∧ s.addr = ⟨0, .hi⟩ ∧
    scrollX s = 0 ∧ scrollY s = 0 ∧ s.dataBuf = 0 ∧ s.scanline = 0 ∧ s.cy = 0 ∧ s.fault = none ∧
    ∀ a, s.nametable.read a = 0 ∧ s.palette.read a = 0 ∧ s.oam.read a = 0 ∧ s.frame.read a = 0

/-- The model's form of a store (log entry 10): two canonical stores that read alike are the same data. -/
def Obligations.CanonicalStoresThatReadAlikeAreEqual : Prop :=
  ∀ (w size : Nat) (m k : Memory w), m.wf size → k.wf size → (∀ a, m.read a = k.read a) → m = k

/-- The construction state meets the invariant (Safety.lean), for every choice of the parameters. -/
def Obligations.ConstructionMeetsTheInvariant : Prop :=
  ∀ p : Params, Inv (State.construct p)

/-- Every step keeps the invariant: the stores stay in canonical form and in range; and unless a STEP halted the block,
`status[4:0]` are 0, the fine accumulators are the latch bytes, palette cell 0x10 holds its construction value, the
scanline is below N, `cy mod Q = 0` and vblank is set exactly on scanlines V..N−1 (spec/10_state.md, spec/20_memory.md
section 2, spec/44_timing.md section 2; D4, D8, D21; the canonical form is the model's, log entry 10). -/
def Obligations.EveryStepKeepsTheInvariant : Prop :=
  ∀ s t : State, Inv s → step s = .next t → Inv t
end

