-- ==== Sys2Proof/Laws/Memory.lean ====
section
/-! SUPPORT. Laws/Memory.lean: what the operations of one store do: reads after writes, and the canonical form. The
read laws hold of every list; only the form needs the form. -/

namespace Sys2Proof.Machine.Memory

variable {w : Nat}

@[simp] theorem read_nil (a : Nat) : read ([] : Memory w) a = unlisted w := rfl

theorem read_cons (c : Nat × BitVec w) (m : Memory w) (a : Nat) :
    read (c :: m) a = if c.1 = a then c.2 else read m a := rfl

/-- A cell no entry names reads as unlisted. -/
theorem read_of_not_listed (m : Memory w) (a : Nat) (h : ∀ c ∈ m, c.1 ≠ a) : read m a = unlisted w := by
  induction m with
  | nil => rfl
  | cons c m ih =>
    rw [read_cons, if_neg (h c List.mem_cons_self)]
    exact ih fun e he => h e (List.mem_cons_of_mem _ he)

/-- A cell the first part does not name is read in the second. -/
theorem read_append_right (m k : Memory w) (a : Nat) (h : ∀ c ∈ m, c.1 ≠ a) : read (m ++ k) a = read k a := by
  induction m with
  | nil => rfl
  | cons c m ih =>
    rw [List.cons_append, read_cons, if_neg (h c List.mem_cons_self)]
    exact ih fun e he => h e (List.mem_cons_of_mem _ he)

/-- A cell the second part does not name is read in the first. -/
theorem read_append_left (m k : Memory w) (a : Nat) (h : ∀ c ∈ k, c.1 ≠ a) : read (m ++ k) a = read m a := by
  induction m with
  | nil => simpa using read_of_not_listed k a h
  | cons c m ih => rw [List.cons_append, read_cons, read_cons, ih]

/-- Filtering by index keeps every cell whose index stays. -/
theorem read_filter (m : Memory w) (p : Nat → Bool) (a : Nat) :
    read (m.filter fun c => p c.1) a = if p a then read m a else unlisted w := by
  induction m with
  | nil => simp
  | cons c m ih =>
    by_cases hc : c.1 = a
    · subst hc
      by_cases hp : p c.1 <;> simp [hp, read_cons, ih]
    · by_cases hp : p c.1 <;> simp [hp, read_cons, hc, ih]

theorem read_insert (m : Memory w) (a b : Nat) (v : BitVec w) :
    read (insert a v m) b = if b = a then v else read m b := by
  induction m with
  | nil => simp [insert, read_cons, eq_comm]
  | cons c m ih =>
    obtain ⟨k, u⟩ := c
    unfold insert
    split
    · simp [read_cons, eq_comm]
    · split
      · rename_i h; subst h
        by_cases hb : b = a <;> simp [read_cons, hb]
        simp [Ne.symm hb]
      · rename_i h
        rw [read_cons, read_cons, ih]
        by_cases hb : b = a
        · subst hb; simp [Ne.symm h]
        · simp [hb]

/-- Read after write: the cell written holds the value, every other cell what it held. -/
theorem read_write (m : Memory w) (a b : Nat) (v : BitVec w) :
    read (write m a v) b = if b = a then v else read m b := by
  unfold write
  split
  · rename_i h
    have := read_filter m (fun k => decide (k ≠ a)) b
    rw [this]
    by_cases hb : b = a <;> simp [hb, h]
  · exact read_insert m a b v

@[simp] theorem read_write_same (m : Memory w) (a : Nat) (v : BitVec w) : read (write m a v) a = v := by
  simp [read_write]

theorem read_write_other (m : Memory w) (a b : Nat) (v : BitVec w) (h : b ≠ a) : read (write m a v) b = read m b := by
  simp [read_write, h]

/-- The listed cells of `a`, `a + 1`, ... lie in that range and are not the unlisted value. -/
theorem mem_cellsFrom (a : Nat) (vs : List (BitVec w)) (c : Nat × BitVec w) (h : c ∈ cellsFrom a vs) :
    a ≤ c.1 ∧ c.1 < a + vs.length ∧ c.2 ≠ unlisted w := by
  induction vs generalizing a with
  | nil => simp [cellsFrom] at h
  | cons v vs ih =>
    unfold cellsFrom at h
    simp only [List.length_cons]
    split at h
    · have := ih (a + 1) h
      exact ⟨by omega, by omega, this.2.2⟩
    · rcases List.mem_cons.mp h with rfl | h
      · refine ⟨Nat.le_refl _, by omega, ?_⟩; assumption
      · have := ih (a + 1) h
        exact ⟨by omega, by omega, this.2.2⟩

theorem read_cellsFrom (a : Nat) (vs : List (BitVec w)) (b : Nat) (h : a ≤ b) :
    read (cellsFrom a vs) b = vs.getD (b - a) (unlisted w) := by
  induction vs generalizing a with
  | nil => simp [cellsFrom]
  | cons v vs ih =>
    by_cases hb : a = b
    · subst hb
      unfold cellsFrom
      split
      · rename_i hv
        rw [read_of_not_listed _ _ fun c hc => by have := mem_cellsFrom _ _ _ hc; omega]
        simp [hv]
      · simp [read_cons]
    · have hs : b - a = (b - (a + 1)) + 1 := by omega
      unfold cellsFrom
      split
      · rw [ih (a + 1) (by omega), hs]; simp
      · rw [read_cons, if_neg (by simpa using hb), ih (a + 1) (by omega), hs]; simp

/-- Read after splice: the cells of the range hold the values, every other cell what it held. -/
theorem read_splice (m : Memory w) (a b : Nat) (vs : List (BitVec w)) :
    read (splice m a vs) b = if a ≤ b ∧ b < a + vs.length then vs.getD (b - a) (unlisted w) else read m b := by
  have hlow := read_filter m (fun k => decide (k < a)) b
  have hhigh := read_filter m (fun k => decide (a + vs.length ≤ k)) b
  unfold splice
  by_cases h1 : b < a
  · rw [read_append_left _ _ _ ?_, hlow]
    · simp [h1, Nat.not_le_of_lt h1]
    · intro c hc
      rcases List.mem_append.mp hc with hc | hc
      · have := mem_cellsFrom _ _ _ hc; omega
      · have := (List.mem_filter.mp hc).2; simp at this; omega
  · rw [read_append_right _ _ _ ?_]
    · by_cases h2 : b < a + vs.length
      · rw [read_append_left _ _ _ ?_, read_cellsFrom _ _ _ (by omega), if_pos ⟨by omega, h2⟩]
        intro c hc
        have := (List.mem_filter.mp hc).2; simp at this; omega
      · rw [read_append_right _ _ _ ?_, hhigh]
        · simp [Nat.le_of_not_lt h2, h2]
        · intro c hc
          have := mem_cellsFrom _ _ _ hc; omega
    · intro c hc
      have := (List.mem_filter.mp hc).2; simp at this; omega

/-! ### The canonical form -/

theorem nil_wf (size : Nat) : wf size ([] : Memory w) := ⟨List.Pairwise.nil, by simp⟩

theorem mem_insert (a : Nat) (v : BitVec w) (m : Memory w) (c : Nat × BitVec w) (h : c ∈ insert a v m) :
    c = (a, v) ∨ c ∈ m := by
  induction m with
  | nil => simpa [insert] using h
  | cons e m ih =>
    obtain ⟨k, u⟩ := e
    unfold insert at h
    split at h
    · simpa using h
    · split at h
      · rcases List.mem_cons.mp h with rfl | h
        · exact .inl rfl
        · exact .inr (List.mem_cons_of_mem _ h)
      · rcases List.mem_cons.mp h with rfl | h
        · exact .inr List.mem_cons_self
        · exact (ih h).imp_right (List.mem_cons_of_mem _)

theorem insert_sorted (a : Nat) (v : BitVec w) (m : Memory w) (h : m.Pairwise fun c e => c.1 < e.1) :
    (insert a v m).Pairwise fun c e => c.1 < e.1 := by
  induction m with
  | nil => simp [insert]
  | cons e m ih =>
    obtain ⟨k, u⟩ := e
    have ⟨hk, hm⟩ := List.pairwise_cons.mp h
    unfold insert
    split
    · rename_i hlt
      refine List.pairwise_cons.mpr ⟨?_, h⟩
      intro c hc
      rcases List.mem_cons.mp hc with rfl | hc
      · exact hlt
      · exact Nat.lt_trans hlt (hk c hc)
    · split
      · rename_i heq; subst heq
        exact List.pairwise_cons.mpr ⟨fun c hc => hk c hc, hm⟩
      · refine List.pairwise_cons.mpr ⟨?_, ih hm⟩
        intro c hc
        rcases mem_insert a v m c hc with rfl | hc
        · show k < a; omega
        · exact hk c hc

/-- A write in range keeps the canonical form. -/
theorem write_wf (size : Nat) (m : Memory w) (a : Nat) (v : BitVec w) (h : wf size m) (ha : a < size) :
    wf size (write m a v) := by
  unfold write
  split
  · exact ⟨h.1.filter _, fun c hc => h.2 c (List.mem_filter.mp hc).1⟩
  · rename_i hv
    refine ⟨insert_sorted a v m h.1, fun c hc => ?_⟩
    rcases mem_insert a v m c hc with rfl | hc
    · exact ⟨ha, hv⟩
    · exact h.2 c hc

theorem cellsFrom_sorted (a : Nat) (vs : List (BitVec w)) : (cellsFrom a vs).Pairwise fun c e => c.1 < e.1 := by
  induction vs generalizing a with
  | nil => simp [cellsFrom]
  | cons v vs ih =>
    unfold cellsFrom
    split
    · exact ih (a + 1)
    · refine List.pairwise_cons.mpr ⟨fun c hc => ?_, ih (a + 1)⟩
      have := mem_cellsFrom _ _ _ hc
      show a < c.1
      omega

/-- A splice in range keeps the canonical form. -/
theorem splice_wf (size : Nat) (m : Memory w) (a : Nat) (vs : List (BitVec w)) (h : wf size m)
    (ha : a + vs.length ≤ size) : wf size (splice m a vs) := by
  unfold splice
  refine ⟨List.pairwise_append.mpr ⟨h.1.filter _, List.pairwise_append.mpr ⟨cellsFrom_sorted a vs, h.1.filter _, ?_⟩, ?_⟩, ?_⟩
  · intro c hc e he
    have h1 := mem_cellsFrom _ _ _ hc
    have h2 := (List.mem_filter.mp he).2
    simp at h2; omega
  · intro c hc e he
    have h1 := (List.mem_filter.mp hc).2
    simp at h1
    rcases List.mem_append.mp he with he | he
    · have := mem_cellsFrom _ _ _ he; omega
    · have h2 := (List.mem_filter.mp he).2
      simp at h2; omega
  · intro c hc
    rcases List.mem_append.mp hc with hc | hc
    · exact h.2 c (List.mem_filter.mp hc).1
    · rcases List.mem_append.mp hc with hc | hc
      · have := mem_cellsFrom _ _ _ hc
        exact ⟨by omega, this.2.2⟩
      · exact h.2 c (List.mem_filter.mp hc).1

end Sys2Proof.Machine.Memory
end

