-- ==== Sys2Proof/Laws/State.lean ====
section
/-! SUPPORT. Laws/State.lean: the fields of a state after each named update, one lemma per field, so that no later proof
unfolds a record update. -/

namespace Sys2Proof.Machine

/-! ### Raising a fault changes `fault` and `reply` (R266). -/

@[simp] theorem raise_ctrl (r : FaultRecord) (s : State) : (raise r s).ctrl = s.ctrl := rfl
@[simp] theorem raise_mask (r : FaultRecord) (s : State) : (raise r s).mask = s.mask := rfl
@[simp] theorem raise_status (r : FaultRecord) (s : State) : (raise r s).status = s.status := rfl
@[simp] theorem raise_oamAddr (r : FaultRecord) (s : State) : (raise r s).oamAddr = s.oamAddr := rfl
@[simp] theorem raise_scroll (r : FaultRecord) (s : State) : (raise r s).scroll = s.scroll := rfl
@[simp] theorem raise_addr (r : FaultRecord) (s : State) : (raise r s).addr = s.addr := rfl
@[simp] theorem raise_sxFine (r : FaultRecord) (s : State) : (raise r s).sxFine = s.sxFine := rfl
@[simp] theorem raise_sxNt (r : FaultRecord) (s : State) : (raise r s).sxNt = s.sxNt := rfl
@[simp] theorem raise_syFine (r : FaultRecord) (s : State) : (raise r s).syFine = s.syFine := rfl
@[simp] theorem raise_syNt (r : FaultRecord) (s : State) : (raise r s).syNt = s.syNt := rfl
@[simp] theorem raise_dataBuf (r : FaultRecord) (s : State) : (raise r s).dataBuf = s.dataBuf := rfl
@[simp] theorem raise_scanline (r : FaultRecord) (s : State) : (raise r s).scanline = s.scanline := rfl
@[simp] theorem raise_cy (r : FaultRecord) (s : State) : (raise r s).cy = s.cy := rfl
@[simp] theorem raise_nametable (r : FaultRecord) (s : State) : (raise r s).nametable = s.nametable := rfl
@[simp] theorem raise_palette (r : FaultRecord) (s : State) : (raise r s).palette = s.palette := rfl
@[simp] theorem raise_oam (r : FaultRecord) (s : State) : (raise r s).oam = s.oam := rfl
@[simp] theorem raise_frame (r : FaultRecord) (s : State) : (raise r s).frame = s.frame := rfl
@[simp] theorem raise_fault (r : FaultRecord) (s : State) : (raise r s).fault = some r := rfl
@[simp] theorem raise_params (r : FaultRecord) (s : State) : (raise r s).params = s.params := rfl
@[simp] theorem raise_chr (r : FaultRecord) (s : State) : (raise r s).chr = s.chr := rfl
@[simp] theorem raise_inbox (r : FaultRecord) (s : State) : (raise r s).inbox = s.inbox := rfl
@[simp] theorem raise_reply (r : FaultRecord) (s : State) : (raise r s).reply = .fault r := rfl

/-! ### Returning a result changes `reply`. -/

@[simp] theorem returning_ctrl (v : Reply) (s : State) : (returning v s).ctrl = s.ctrl := rfl
@[simp] theorem returning_mask (v : Reply) (s : State) : (returning v s).mask = s.mask := rfl
@[simp] theorem returning_status (v : Reply) (s : State) : (returning v s).status = s.status := rfl
@[simp] theorem returning_oamAddr (v : Reply) (s : State) : (returning v s).oamAddr = s.oamAddr := rfl
@[simp] theorem returning_scroll (v : Reply) (s : State) : (returning v s).scroll = s.scroll := rfl
@[simp] theorem returning_addr (v : Reply) (s : State) : (returning v s).addr = s.addr := rfl
@[simp] theorem returning_sxFine (v : Reply) (s : State) : (returning v s).sxFine = s.sxFine := rfl
@[simp] theorem returning_sxNt (v : Reply) (s : State) : (returning v s).sxNt = s.sxNt := rfl
@[simp] theorem returning_syFine (v : Reply) (s : State) : (returning v s).syFine = s.syFine := rfl
@[simp] theorem returning_syNt (v : Reply) (s : State) : (returning v s).syNt = s.syNt := rfl
@[simp] theorem returning_dataBuf (v : Reply) (s : State) : (returning v s).dataBuf = s.dataBuf := rfl
@[simp] theorem returning_scanline (v : Reply) (s : State) : (returning v s).scanline = s.scanline := rfl
@[simp] theorem returning_cy (v : Reply) (s : State) : (returning v s).cy = s.cy := rfl
@[simp] theorem returning_nametable (v : Reply) (s : State) : (returning v s).nametable = s.nametable := rfl
@[simp] theorem returning_palette (v : Reply) (s : State) : (returning v s).palette = s.palette := rfl
@[simp] theorem returning_oam (v : Reply) (s : State) : (returning v s).oam = s.oam := rfl
@[simp] theorem returning_frame (v : Reply) (s : State) : (returning v s).frame = s.frame := rfl
@[simp] theorem returning_fault (v : Reply) (s : State) : (returning v s).fault = s.fault := rfl
@[simp] theorem returning_params (v : Reply) (s : State) : (returning v s).params = s.params := rfl
@[simp] theorem returning_chr (v : Reply) (s : State) : (returning v s).chr = s.chr := rfl
@[simp] theorem returning_inbox (v : Reply) (s : State) : (returning v s).inbox = s.inbox := rfl
@[simp] theorem returning_reply (v : Reply) (s : State) : (returning v s).reply = v := rfl

/-! ### The address advance changes `addr.val` (R127). -/

@[simp] theorem advanceAddr_ctrl (s : State) : (advanceAddr s).ctrl = s.ctrl := rfl
@[simp] theorem advanceAddr_mask (s : State) : (advanceAddr s).mask = s.mask := rfl
@[simp] theorem advanceAddr_status (s : State) : (advanceAddr s).status = s.status := rfl
@[simp] theorem advanceAddr_oamAddr (s : State) : (advanceAddr s).oamAddr = s.oamAddr := rfl
@[simp] theorem advanceAddr_scroll (s : State) : (advanceAddr s).scroll = s.scroll := rfl
@[simp] theorem advanceAddr_addr (s : State) : (advanceAddr s).addr = { s.addr with val := s.addr.val + inc s } := rfl
@[simp] theorem advanceAddr_sxFine (s : State) : (advanceAddr s).sxFine = s.sxFine := rfl
@[simp] theorem advanceAddr_sxNt (s : State) : (advanceAddr s).sxNt = s.sxNt := rfl
@[simp] theorem advanceAddr_syFine (s : State) : (advanceAddr s).syFine = s.syFine := rfl
@[simp] theorem advanceAddr_syNt (s : State) : (advanceAddr s).syNt = s.syNt := rfl
@[simp] theorem advanceAddr_dataBuf (s : State) : (advanceAddr s).dataBuf = s.dataBuf := rfl
@[simp] theorem advanceAddr_scanline (s : State) : (advanceAddr s).scanline = s.scanline := rfl
@[simp] theorem advanceAddr_cy (s : State) : (advanceAddr s).cy = s.cy := rfl
@[simp] theorem advanceAddr_nametable (s : State) : (advanceAddr s).nametable = s.nametable := rfl
@[simp] theorem advanceAddr_palette (s : State) : (advanceAddr s).palette = s.palette := rfl
@[simp] theorem advanceAddr_oam (s : State) : (advanceAddr s).oam = s.oam := rfl
@[simp] theorem advanceAddr_frame (s : State) : (advanceAddr s).frame = s.frame := rfl
@[simp] theorem advanceAddr_fault (s : State) : (advanceAddr s).fault = s.fault := rfl
@[simp] theorem advanceAddr_params (s : State) : (advanceAddr s).params = s.params := rfl
@[simp] theorem advanceAddr_chr (s : State) : (advanceAddr s).chr = s.chr := rfl
@[simp] theorem advanceAddr_inbox (s : State) : (advanceAddr s).inbox = s.inbox := rfl
@[simp] theorem advanceAddr_reply (s : State) : (advanceAddr s).reply = s.reply := rfl

/-! ### An OAM store changes `oam` (R69). -/

@[simp] theorem oamStore_ctrl (s : State) (i v : Byte) : (oamStore s i v).ctrl = s.ctrl := rfl
@[simp] theorem oamStore_mask (s : State) (i v : Byte) : (oamStore s i v).mask = s.mask := rfl
@[simp] theorem oamStore_status (s : State) (i v : Byte) : (oamStore s i v).status = s.status := rfl
@[simp] theorem oamStore_oamAddr (s : State) (i v : Byte) : (oamStore s i v).oamAddr = s.oamAddr := rfl
@[simp] theorem oamStore_scroll (s : State) (i v : Byte) : (oamStore s i v).scroll = s.scroll := rfl
@[simp] theorem oamStore_addr (s : State) (i v : Byte) : (oamStore s i v).addr = s.addr := rfl
@[simp] theorem oamStore_sxFine (s : State) (i v : Byte) : (oamStore s i v).sxFine = s.sxFine := rfl
@[simp] theorem oamStore_sxNt (s : State) (i v : Byte) : (oamStore s i v).sxNt = s.sxNt := rfl
@[simp] theorem oamStore_syFine (s : State) (i v : Byte) : (oamStore s i v).syFine = s.syFine := rfl
@[simp] theorem oamStore_syNt (s : State) (i v : Byte) : (oamStore s i v).syNt = s.syNt := rfl
@[simp] theorem oamStore_dataBuf (s : State) (i v : Byte) : (oamStore s i v).dataBuf = s.dataBuf := rfl
@[simp] theorem oamStore_scanline (s : State) (i v : Byte) : (oamStore s i v).scanline = s.scanline := rfl
@[simp] theorem oamStore_cy (s : State) (i v : Byte) : (oamStore s i v).cy = s.cy := rfl
@[simp] theorem oamStore_nametable (s : State) (i v : Byte) : (oamStore s i v).nametable = s.nametable := rfl
@[simp] theorem oamStore_palette (s : State) (i v : Byte) : (oamStore s i v).palette = s.palette := rfl
@[simp] theorem oamStore_oam (s : State) (i v : Byte) : (oamStore s i v).oam = s.oam.write i.toNat v := rfl
@[simp] theorem oamStore_frame (s : State) (i v : Byte) : (oamStore s i v).frame = s.frame := rfl
@[simp] theorem oamStore_fault (s : State) (i v : Byte) : (oamStore s i v).fault = s.fault := rfl
@[simp] theorem oamStore_params (s : State) (i v : Byte) : (oamStore s i v).params = s.params := rfl
@[simp] theorem oamStore_chr (s : State) (i v : Byte) : (oamStore s i v).chr = s.chr := rfl
@[simp] theorem oamStore_inbox (s : State) (i v : Byte) : (oamStore s i v).inbox = s.inbox := rfl
@[simp] theorem oamStore_reply (s : State) (i v : Byte) : (oamStore s i v).reply = s.reply := rfl

/-! ### The status load's latch reset changes the two next-write selectors (R45). -/

@[simp] theorem resetLatches_ctrl (s : State) : (resetLatches s).ctrl = s.ctrl := rfl
@[simp] theorem resetLatches_mask (s : State) : (resetLatches s).mask = s.mask := rfl
@[simp] theorem resetLatches_status (s : State) : (resetLatches s).status = s.status := rfl
@[simp] theorem resetLatches_oamAddr (s : State) : (resetLatches s).oamAddr = s.oamAddr := rfl
@[simp] theorem resetLatches_scroll (s : State) : (resetLatches s).scroll = { s.scroll with next := .x } := rfl
@[simp] theorem resetLatches_addr (s : State) : (resetLatches s).addr = { s.addr with next := .hi } := rfl
@[simp] theorem resetLatches_sxFine (s : State) : (resetLatches s).sxFine = s.sxFine := rfl
@[simp] theorem resetLatches_sxNt (s : State) : (resetLatches s).sxNt = s.sxNt := rfl
@[simp] theorem resetLatches_syFine (s : State) : (resetLatches s).syFine = s.syFine := rfl
@[simp] theorem resetLatches_syNt (s : State) : (resetLatches s).syNt = s.syNt := rfl
@[simp] theorem resetLatches_dataBuf (s : State) : (resetLatches s).dataBuf = s.dataBuf := rfl
@[simp] theorem resetLatches_scanline (s : State) : (resetLatches s).scanline = s.scanline := rfl
@[simp] theorem resetLatches_cy (s : State) : (resetLatches s).cy = s.cy := rfl
@[simp] theorem resetLatches_nametable (s : State) : (resetLatches s).nametable = s.nametable := rfl
@[simp] theorem resetLatches_palette (s : State) : (resetLatches s).palette = s.palette := rfl
@[simp] theorem resetLatches_oam (s : State) : (resetLatches s).oam = s.oam := rfl
@[simp] theorem resetLatches_frame (s : State) : (resetLatches s).frame = s.frame := rfl
@[simp] theorem resetLatches_fault (s : State) : (resetLatches s).fault = s.fault := rfl
@[simp] theorem resetLatches_params (s : State) : (resetLatches s).params = s.params := rfl
@[simp] theorem resetLatches_chr (s : State) : (resetLatches s).chr = s.chr := rfl
@[simp] theorem resetLatches_inbox (s : State) : (resetLatches s).inbox = s.inbox := rfl
@[simp] theorem resetLatches_reply (s : State) : (resetLatches s).reply = s.reply := rfl

/-! ### A ctrl store changes `ctrl` and the nametable-select parts (R111). -/

@[simp] theorem storeCtrl_ctrl (d : Byte) (s : State) : (storeCtrl d s).ctrl = d := rfl
@[simp] theorem storeCtrl_mask (d : Byte) (s : State) : (storeCtrl d s).mask = s.mask := rfl
@[simp] theorem storeCtrl_status (d : Byte) (s : State) : (storeCtrl d s).status = s.status := rfl
@[simp] theorem storeCtrl_oamAddr (d : Byte) (s : State) : (storeCtrl d s).oamAddr = s.oamAddr := rfl
@[simp] theorem storeCtrl_scroll (d : Byte) (s : State) : (storeCtrl d s).scroll = s.scroll := rfl
@[simp] theorem storeCtrl_addr (d : Byte) (s : State) : (storeCtrl d s).addr = s.addr := rfl
@[simp] theorem storeCtrl_sxFine (d : Byte) (s : State) : (storeCtrl d s).sxFine = s.sxFine := rfl
@[simp] theorem storeCtrl_sxNt (d : Byte) (s : State) : (storeCtrl d s).sxNt = ctrlXnt d := rfl
@[simp] theorem storeCtrl_syFine (d : Byte) (s : State) : (storeCtrl d s).syFine = s.syFine := rfl
@[simp] theorem storeCtrl_syNt (d : Byte) (s : State) : (storeCtrl d s).syNt = ctrlYnt d := rfl
@[simp] theorem storeCtrl_dataBuf (d : Byte) (s : State) : (storeCtrl d s).dataBuf = s.dataBuf := rfl
@[simp] theorem storeCtrl_scanline (d : Byte) (s : State) : (storeCtrl d s).scanline = s.scanline := rfl
@[simp] theorem storeCtrl_cy (d : Byte) (s : State) : (storeCtrl d s).cy = s.cy := rfl
@[simp] theorem storeCtrl_nametable (d : Byte) (s : State) : (storeCtrl d s).nametable = s.nametable := rfl
@[simp] theorem storeCtrl_palette (d : Byte) (s : State) : (storeCtrl d s).palette = s.palette := rfl
@[simp] theorem storeCtrl_oam (d : Byte) (s : State) : (storeCtrl d s).oam = s.oam := rfl
@[simp] theorem storeCtrl_frame (d : Byte) (s : State) : (storeCtrl d s).frame = s.frame := rfl
@[simp] theorem storeCtrl_fault (d : Byte) (s : State) : (storeCtrl d s).fault = s.fault := rfl
@[simp] theorem storeCtrl_params (d : Byte) (s : State) : (storeCtrl d s).params = s.params := rfl
@[simp] theorem storeCtrl_chr (d : Byte) (s : State) : (storeCtrl d s).chr = s.chr := rfl
@[simp] theorem storeCtrl_inbox (d : Byte) (s : State) : (storeCtrl d s).inbox = s.inbox := rfl
@[simp] theorem storeCtrl_reply (d : Byte) (s : State) : (storeCtrl d s).reply = s.reply := rfl

/-! ### Taking a transaction changes `inbox` and `chr`. -/

@[simp] theorem take_ctrl (s : State) (t : Transaction) (rest : List Transaction) : (s.take t rest).ctrl = s.ctrl := rfl
@[simp] theorem take_mask (s : State) (t : Transaction) (rest : List Transaction) : (s.take t rest).mask = s.mask := rfl
@[simp] theorem take_status (s : State) (t : Transaction) (rest : List Transaction) : (s.take t rest).status = s.status := rfl
@[simp] theorem take_oamAddr (s : State) (t : Transaction) (rest : List Transaction) : (s.take t rest).oamAddr = s.oamAddr := rfl
@[simp] theorem take_scroll (s : State) (t : Transaction) (rest : List Transaction) : (s.take t rest).scroll = s.scroll := rfl
@[simp] theorem take_addr (s : State) (t : Transaction) (rest : List Transaction) : (s.take t rest).addr = s.addr := rfl
@[simp] theorem take_sxFine (s : State) (t : Transaction) (rest : List Transaction) : (s.take t rest).sxFine = s.sxFine := rfl
@[simp] theorem take_sxNt (s : State) (t : Transaction) (rest : List Transaction) : (s.take t rest).sxNt = s.sxNt := rfl
@[simp] theorem take_syFine (s : State) (t : Transaction) (rest : List Transaction) : (s.take t rest).syFine = s.syFine := rfl
@[simp] theorem take_syNt (s : State) (t : Transaction) (rest : List Transaction) : (s.take t rest).syNt = s.syNt := rfl
@[simp] theorem take_dataBuf (s : State) (t : Transaction) (rest : List Transaction) : (s.take t rest).dataBuf = s.dataBuf := rfl
@[simp] theorem take_scanline (s : State) (t : Transaction) (rest : List Transaction) : (s.take t rest).scanline = s.scanline := rfl
@[simp] theorem take_cy (s : State) (t : Transaction) (rest : List Transaction) : (s.take t rest).cy = s.cy := rfl
@[simp] theorem take_nametable (s : State) (t : Transaction) (rest : List Transaction) : (s.take t rest).nametable = s.nametable := rfl
@[simp] theorem take_palette (s : State) (t : Transaction) (rest : List Transaction) : (s.take t rest).palette = s.palette := rfl
@[simp] theorem take_oam (s : State) (t : Transaction) (rest : List Transaction) : (s.take t rest).oam = s.oam := rfl
@[simp] theorem take_frame (s : State) (t : Transaction) (rest : List Transaction) : (s.take t rest).frame = s.frame := rfl
@[simp] theorem take_fault (s : State) (t : Transaction) (rest : List Transaction) : (s.take t rest).fault = s.fault := rfl
@[simp] theorem take_params (s : State) (t : Transaction) (rest : List Transaction) : (s.take t rest).params = s.params := rfl
@[simp] theorem take_chr (s : State) (t : Transaction) (rest : List Transaction) : (s.take t rest).chr = t.chr := rfl
@[simp] theorem take_inbox (s : State) (t : Transaction) (rest : List Transaction) : (s.take t rest).inbox = rest := rfl
@[simp] theorem take_reply (s : State) (t : Transaction) (rest : List Transaction) : (s.take t rest).reply = s.reply := rfl

/-! ### Terms that read only what an update keeps -/

@[simp] theorem inc_returning (v : Reply) (s : State) : inc (returning v s) = inc s := rfl
@[simp] theorem inc_raise (r : FaultRecord) (s : State) : inc (raise r s) = inc s := rfl
@[simp] theorem inc_advanceAddr (s : State) : inc (advanceAddr s) = inc s := rfl
@[simp] theorem statusByte_returning (v : Reply) (s : State) : statusByte (returning v s) = statusByte s := rfl
@[simp] theorem oamLoad_returning (v : Reply) (s : State) (i : Byte) : oamLoad (returning v s) i = oamLoad s i := rfl
@[simp] theorem vramLoad_returning (v : Reply) (s : State) (a : VramAddr) : vramLoad (returning v s) a = vramLoad s a := rfl
@[simp] theorem vramLoad_advanceAddr (s : State) (a : VramAddr) : vramLoad (advanceAddr s) a = vramLoad s a := rfl

end Sys2Proof.Machine
end

