-- ==== Sys2Proof/Laws/Ops.lean ====
section
/-! SUPPORT. Laws/Ops.lean: one lemma for each shared operation that says all it can do: starting a transaction, the
VRAM primitives, the latches. -/

namespace Sys2Proof.Machine

variable {s t : State} {f : State → State}

/-! ### Starting a transaction (R266) -/

theorem transact_running (h : s.fault = none) : transact s f = .next (f s) := by simp [transact, h]

theorem transact_halted {r : FaultRecord} (h : s.fault = some r) : transact s f = .fault (.halted r) := by
  simp [transact, h]

/-- A transaction that has a next state started from a block that was not halted, and its effect is that state. -/
theorem transact_next (h : transact s f = .next t) : s.fault = none ∧ t = f s := by
  unfold transact at h
  split at h
  · rename_i hf
    injection h with h
    exact ⟨hf, h.symm⟩
  · exact absurd h (by simp)

/-- No transaction is refused once it is decoded. -/
theorem transact_not_refused (r : Refusal) : transact s f ≠ .refused r := by
  unfold transact
  split <;> simp

/-! ### `VramLoad` (R61) -/

theorem vramLoad_pattern {a : VramAddr} (h : a < 0x2000#16) : vramLoad s a = .ok (chrLoad s a.toNat) := by
  simp [vramLoad, h]

theorem vramLoad_nametable {a : VramAddr} (h1 : 0x2000#16 ≤ a) (h2 : a < 0x3F00#16) :
    vramLoad s a = .ok (s.nametable.read (nametableCell a)) := by
  simp [vramLoad, h2, BitVec.not_lt.mpr h1]

theorem vramLoad_palette {a : VramAddr} (h1 : 0x3F00#16 ≤ a) (h2 : a < 0x4000#16) :
    vramLoad s a = .ok ((s.palette.read (paletteCell a)).setWidth 8) := by
  have h0 : ¬ a < 0x2000#16 := by bv_omega
  simp [vramLoad, h2, BitVec.not_lt.mpr h1, h0]

theorem vramLoad_range {a : VramAddr} (h : 0x4000#16 ≤ a) : vramLoad s a = .error (.vramRange a .load) := by
  have h0 : ¬ a < 0x2000#16 := by bv_omega
  have h1 : ¬ a < 0x3F00#16 := by bv_omega
  simp [vramLoad, BitVec.not_lt.mpr h, h0, h1]

/-- Below 0x4000 every load answers a byte. -/
theorem vramLoad_ok {a : VramAddr} (h : a < 0x4000#16) : ∃ v, vramLoad s a = .ok v := by
  simp only [vramLoad, h, if_true]
  split
  · exact ⟨_, rfl⟩
  · split <;> exact ⟨_, rfl⟩

/-- A load faults only with `FAULT_VRAM_RANGE` at an address from 0x4000 on. -/
theorem vramLoad_error {a : VramAddr} {r : FaultRecord} (h : vramLoad s a = .error r) :
    0x4000#16 ≤ a ∧ r = .vramRange a .load := by
  by_cases ha : a < 0x4000#16
  · obtain ⟨v, hv⟩ := vramLoad_ok (s := s) ha
    rw [hv] at h; exact absurd h (by simp)
  · have ha := BitVec.not_lt.mp ha
    rw [vramLoad_range ha] at h
    injection h with h
    exact ⟨ha, h.symm⟩

/-! ### The cells an address names (R64, R65, R66) -/

theorem nametableCell_eq (a : VramAddr) : nametableCell a = a.toNat % 2048 := by
  have := Nat.and_two_pow_sub_one_eq_mod a.toNat 11
  simpa [nametableCell] using this

theorem paletteCell_eq (a : VramAddr) : paletteCell a = a.toNat % 32 := by
  have := Nat.and_two_pow_sub_one_eq_mod a.toNat 5
  simpa [paletteCell] using this

theorem nametableCell_lt (a : VramAddr) : nametableCell a < Config.nametableSize := by
  rw [nametableCell_eq]; exact Nat.mod_lt _ (by decide)

theorem paletteCell_lt (a : VramAddr) : paletteCell a < Config.paletteSize := by
  rw [paletteCell_eq]; exact Nat.mod_lt _ (by decide)

theorem paletteStoreCell_lt (a : VramAddr) : paletteStoreCell a < Config.paletteSize := by
  unfold paletteStoreCell
  split
  · decide
  · exact paletteCell_lt a

/-- No store reaches palette cell 0x10 (R66, conflict C10). -/
theorem paletteStoreCell_ne (a : VramAddr) : paletteStoreCell a ≠ 0x10 := by
  unfold paletteStoreCell
  split
  · decide
  · assumption

/-! ### `VramStore` (R62) -/

/-- A store that does not fault leaves the state alone, or writes one nametable cell, or writes one palette cell. -/
theorem vramStore_cases {a : VramAddr} {v : Byte} (h : vramStore s a v = .ok t) :
    (a < 0x2000#16 ∧ t = s) ∨
    (0x2000#16 ≤ a ∧ a < 0x3F00#16 ∧ t = { s with nametable := s.nametable.write (nametableCell a) v }) ∨
    (0x3F00#16 ≤ a ∧ a < 0x4000#16 ∧
      t = { s with palette := s.palette.write (paletteStoreCell a) ((v &&& 0x3F#8).setWidth 6) }) := by
  unfold vramStore at h
  split at h
  · rename_i h0; injection h with h; exact .inl ⟨h0, h.symm⟩
  · rename_i h0
    split at h
    · rename_i h1; injection h with h; exact .inr (.inl ⟨BitVec.not_lt.mp h0, h1, h.symm⟩)
    · rename_i h1
      split at h
      · rename_i h2; injection h with h; exact .inr (.inr ⟨BitVec.not_lt.mp h1, h2, h.symm⟩)
      · exact absurd h (by simp)

/-- A store faults only with `FAULT_VRAM_RANGE` at an address from 0x4000 on. -/
theorem vramStore_error {a : VramAddr} {v : Byte} {r : FaultRecord} (h : vramStore s a v = .error r) :
    0x4000#16 ≤ a ∧ r = .vramRange a .store := by
  unfold vramStore at h
  split at h
  · exact absurd h (by simp)
  · split at h
    · exact absurd h (by simp)
    · split at h
      · exact absurd h (by simp)
      · rename_i h2; injection h with h; exact ⟨BitVec.not_lt.mp h2, h.symm⟩

theorem vramStore_range {a : VramAddr} {v : Byte} (h : 0x4000#16 ≤ a) :
    vramStore s a v = .error (.vramRange a .store) := by
  have h0 : ¬ a < 0x2000#16 := by bv_omega
  have h1 : ¬ a < 0x3F00#16 := by bv_omega
  simp [vramStore, BitVec.not_lt.mpr h, h0, h1]

/-- Below 0x4000 every store answers a state. -/
theorem vramStore_ok {a : VramAddr} (h : a < 0x4000#16) (v : Byte) : ∃ t, vramStore s a v = .ok t := by
  simp only [vramStore, h, if_true]
  split
  · exact ⟨_, rfl⟩
  · split <;> exact ⟨_, rfl⟩

/-- A store changes no field but the nametable and the palette. -/
theorem vramStore_frame {a : VramAddr} {v : Byte} (h : vramStore s a v = .ok t) :
    t = { s with nametable := t.nametable, palette := t.palette } := by
  rcases vramStore_cases h with ⟨_, rfl⟩ | ⟨_, _, rfl⟩ | ⟨_, _, rfl⟩ <;> rfl

/-! ### OAM (R69) -/

theorem oamLoad_oamStore (s : State) (i j v : Byte) : oamLoad (oamStore s i v) j = if j = i then v else oamLoad s j := by
  simp [oamLoad, oamStore, Memory.read_write, BitVec.toNat_inj]

/-! ### The latches (R116, R117) -/

/-- A scroll store changes the scroll latch and the fine parts. -/
theorem storeScroll_frame (d : Byte) (s : State) :
    storeScroll d s = { s with
      scroll := (storeScroll d s).scroll
      sxFine := (storeScroll d s).sxFine
      syFine := (storeScroll d s).syFine } := by
  unfold storeScroll; split <;> rfl

/-- An addr store changes the address latch and `sx_nt`. -/
theorem storeAddr_frame (d : Byte) (s : State) :
    storeAddr d s = { s with addr := (storeAddr d s).addr, sxNt := (storeAddr d s).sxNt } := by
  unfold storeAddr; split <;> rfl

theorem storeScroll_x {s : State} (d : Byte) (h : s.scroll.next = .x) :
    storeScroll d s = { s with scroll := { x := d, y := s.scroll.y, next := .y }, sxFine := d } := by
  simp [storeScroll, h]

theorem storeScroll_y {s : State} (d : Byte) (h : s.scroll.next = .y) :
    storeScroll d s = { s with scroll := { x := s.scroll.x, y := d, next := .x }, syFine := d } := by
  simp [storeScroll, h]

theorem storeAddr_hi {s : State} (d : Byte) (h : s.addr.next = .hi) :
    storeAddr d s = { s with addr := { val := d ++ s.addr.val.extractLsb' 0 8, next := .lo } } := by
  simp [storeAddr, h]

theorem storeAddr_lo {s : State} (d : Byte) (h : s.addr.next = .lo) :
    storeAddr d s = { s with
      addr := { val := s.addr.val.extractLsb' 8 8 ++ d, next := .hi }
      sxNt := (s.addr.val.extractLsb' 8 8 ++ d : VramAddr).extractLsb' 10 1 } := by
  simp [storeAddr, h]

/-! ### The data register (R118, R126) -/

/-- A data store raises its fault on the state as it was, or stores and then advances the address. -/
theorem storeData_cases (d : Byte) (s : State) :
    (0x4000#16 ≤ s.addr.val ∧ storeData d s = raise (.vramRange s.addr.val .store) s) ∨
    (s.addr.val < 0x4000#16 ∧ ∃ t, vramStore s s.addr.val d = .ok t ∧
      storeData d s = returning .nothing (advanceAddr t)) := by
  unfold storeData
  by_cases h : s.addr.val < 0x4000#16
  · obtain ⟨t, ht⟩ := vramStore_ok (s := s) h d
    exact .inr ⟨h, t, ht, by rw [ht]⟩
  · have h := BitVec.not_lt.mp h
    exact .inl ⟨h, by rw [vramStore_range h]⟩

/-- A data load raises its fault on the state as it was, or goes through the read buffer, or answers at once. -/
theorem loadData_cases (s : State) :
    (0x4000#16 ≤ s.addr.val ∧ loadData s = raise (.vramRange s.addr.val .load) s) ∨
    (∃ v, vramLoad s s.addr.val = .ok v ∧ s.addr.val < 0x3F00#16 ∧
      loadData s = returning (.byte s.dataBuf) { advanceAddr s with dataBuf := v }) ∨
    (∃ v, vramLoad s s.addr.val = .ok v ∧ 0x3F00#16 ≤ s.addr.val ∧ s.addr.val < 0x4000#16 ∧
      loadData s = returning (.byte v) (advanceAddr s)) := by
  unfold loadData
  by_cases h : s.addr.val < 0x4000#16
  · obtain ⟨v, hv⟩ := vramLoad_ok (s := s) h
    by_cases h1 : s.addr.val < 0x3F00#16
    · exact .inr (.inl ⟨v, hv, h1, by simp [hv, h1]⟩)
    · exact .inr (.inr ⟨v, hv, BitVec.not_lt.mp h1, h, by simp [hv, h1]⟩)
  · have h := BitVec.not_lt.mp h
    exact .inl ⟨h, by rw [vramLoad_range h]⟩

end Sys2Proof.Machine
end

