-- ==== Sys2Proof/Laws/Pixels.lean ====
section
/-! SUPPORT. Laws/Pixels.lean: the fetches of the pixel pipeline in closed form (every address the pipeline forms is below
0x4000), and what rendering one scanline may change. -/

namespace Sys2Proof.Machine

variable (s : State)

/-! ### Fetches (R76) -/

theorem fetch_pattern {a : Nat} (h : a < 0x2000) : fetch s a = .ok (chrLoad s a) := by
  have ha : (BitVec.ofNat 16 a).toNat = a := by simp; omega
  unfold fetch
  rw [vramLoad_pattern (by rw [BitVec.lt_def, ha]; exact h), ha]

theorem fetch_nametable {a : Nat} (h1 : 0x2000 ≤ a) (h2 : a < 0x3F00) :
    fetch s a = .ok (s.nametable.read (a % 2048)) := by
  have ha : (BitVec.ofNat 16 a).toNat = a := by simp; omega
  unfold fetch
  rw [vramLoad_nametable (by rw [BitVec.le_def, ha]; exact h1) (by rw [BitVec.lt_def, ha]; exact h2), nametableCell_eq, ha]

theorem fetch_palette {i : Nat} (h : i < 32) : fetch s (0x3F00 + i) = .ok ((s.palette.read i).setWidth 8) := by
  have ha : (BitVec.ofNat 16 (0x3F00 + i)).toNat = 0x3F00 + i := by simp; omega
  unfold fetch
  rw [vramLoad_palette (by rw [BitVec.le_def, ha]; exact Nat.le_add_right _ _)
    (by rw [BitVec.lt_def, ha]; show 0x3F00 + i < 0x4000; omega), paletteCell_eq, ha,
    show (0x3F00 + i) % 32 = i by omega]

/-- `PatternPixel` inside the pattern region: two `ChrLoad`s (R200). -/
theorem patternPixel_eq {base tile row col : Nat} (h : base + 16 * tile + row + 8 < 0x2000) :
    patternPixel s base tile row col =
      .ok (BitVec.ofBool ((chrLoad s (base + 16 * tile + row + 8)).getLsbD (7 - col)) ++
        BitVec.ofBool ((chrLoad s (base + 16 * tile + row)).getLsbD (7 - col))) := by
  unfold patternPixel
  rw [fetch_pattern s (a := base + 16 * tile + row) (by omega), fetch_pattern s h]
  rfl

/-- `PaletteRGB` never faults: the table entry of the palette cell (R201). -/
theorem paletteRgb_eq (i : BitVec 5) : paletteRgb s i = .ok (tableRgb s (s.palette.read i.toNat)) := by
  unfold paletteRgb
  rw [fetch_palette s i.isLt]
  show Except.ok _ = Except.ok _
  congr 2
  apply BitVec.eq_of_getLsbD_eq
  intro k hk
  simp only [BitVec.getLsbD_setWidth, BitVec.getLsbD_and, hk, decide_true, Bool.true_and]
  interval_cases k <;> simp

/-- Pattern bases lie at 0x0000 or 0x1000 (R25, R26). -/
theorem sprBase_le : sprBase s ≤ 0x1000 := by unfold sprBase; split <;> simp

theorem bgBase_le : bgBase s ≤ 0x1000 := by unfold bgBase; split <;> simp

/-! ### Background addresses (R203, R204, R206) -/

theorem bgTile_bounds (xp yp : Nat) :
    0x2000 ≤ (bgTile xp yp).base ∧ (bgTile xp yp).base ≤ 0x2C00 ∧ (bgTile xp yp).tx < 32 ∧ (bgTile xp yp).ty < 30 := by
  refine ⟨?_, ?_, Nat.mod_lt _ (by decide), Nat.mod_lt _ (by decide)⟩ <;> (simp only [bgTile]; split_ifs <;> omega)

theorem tileAddr_bounds (xp yp : Nat) : 0x2000 ≤ (bgTile xp yp).tileAddr ∧ (bgTile xp yp).tileAddr < 0x3000 := by
  have := bgTile_bounds xp yp
  unfold BgTile.tileAddr
  omega

theorem attrAddr_bounds (xp yp : Nat) : 0x2000 ≤ (bgTile xp yp).attrAddr ∧ (bgTile xp yp).attrAddr < 0x3000 := by
  have := bgTile_bounds xp yp
  unfold BgTile.attrAddr
  omega

/-! ### The columns of a row (R219) -/

/-- The bytes of a row: three for each column before the fault. -/
theorem columnsFrom_length_le (list : List Nat) (y : Nat) (xs : List Nat) :
    (columnsFrom s list y xs).bytes.length ≤ 3 * xs.length := by
  induction xs with
  | nil => simp [columnsFrom]
  | cons x xs ih =>
    unfold columnsFrom
    split
    · simp
    · simp only [List.length_cons]; omega

/-- A row without a fault has all its bytes. -/
theorem columnsFrom_length (list : List Nat) (y : Nat) (xs : List Nat) (h : (columnsFrom s list y xs).fault = none) :
    (columnsFrom s list y xs).bytes.length = 3 * xs.length := by
  induction xs with
  | nil => simp [columnsFrom]
  | cons x xs ih =>
    unfold columnsFrom at h ⊢
    split at h
    · exact absurd h (by simp)
    · have := ih h
      simp only [List.length_cons]
      omega

/-! ### Rendering one scanline -/

/-- Rendering changes `status` and `frame`, and `fault` and `reply` when it faults; it never writes VRAM or OAM (R76). -/
theorem renderScanline_frame (y : Nat) (s : State) :
    renderScanline y s = { s with
      status := (renderScanline y s).status
      frame := (renderScanline y s).frame
      fault := (renderScanline y s).fault
      reply := (renderScanline y s).reply } := by
  unfold renderScanline
  dsimp only
  split <;> rfl

/-- The status register and the frame buffer after rendering, and the fault it raised. -/
theorem renderScanline_fields (y : Nat) (s : State) :
    (renderScanline y s).status =
      raiseS0hit (columnsFrom s (evaluate s y).slots y (List.range 256)).zeroHit (raiseOvf (evaluate s y).ninth s.status) ∧
    (renderScanline y s).frame =
      s.frame.splice (frameIndex 0 y) (columnsFrom s (evaluate s y).slots y (List.range 256)).bytes ∧
    (renderScanline y s).fault =
      ((columnsFrom s (evaluate s y).slots y (List.range 256)).fault <|> s.fault) := by
  unfold renderScanline
  simp only [Config.columns]
  split
  · rename_i h; simp [h]
  · rename_i h; simp [h]

end Sys2Proof.Machine
end

