-- ==== Sys2Proof/Laws/Timing.lean ====
section
/-! SUPPORT. Laws/Timing.lean: what one iteration of a STEP may change, and the unrolling of its loop. -/

namespace Sys2Proof.Machine

/-- The first part of an iteration changes only `status`, `frame`, `fault` and `reply`. -/
theorem renderCurrent_frame (s : State) :
    renderCurrent s = { s with
      status := (renderCurrent s).status
      frame := (renderCurrent s).frame
      fault := (renderCurrent s).fault
      reply := (renderCurrent s).reply } := by
  unfold renderCurrent
  split
  · exact renderScanline_frame _ s
  · rfl

@[simp] theorem renderCurrent_scanline (s : State) : (renderCurrent s).scanline = s.scanline := by
  rw [renderCurrent_frame]

@[simp] theorem renderCurrent_cy (s : State) : (renderCurrent s).cy = s.cy := by rw [renderCurrent_frame]

@[simp] theorem renderCurrent_params (s : State) : (renderCurrent s).params = s.params := by rw [renderCurrent_frame]

@[simp] theorem renderCurrent_ctrl (s : State) : (renderCurrent s).ctrl = s.ctrl := by rw [renderCurrent_frame]

@[simp] theorem renderCurrent_mask (s : State) : (renderCurrent s).mask = s.mask := by rw [renderCurrent_frame]

/-- Past the visible scanlines nothing is rendered (R242). -/
theorem renderCurrent_blank {s : State} (h : 240 ≤ s.scanline) : renderCurrent s = s := by
  unfold renderCurrent Config.rows
  rw [if_neg (by omega)]

/-- The rest of an iteration changes only `status`, `scanline` and `cy`. -/
theorem advanceScanline_frame (s : State) :
    advanceScanline s = { s with
      status := (advanceScanline s).status
      scanline := (advanceScanline s).scanline
      cy := s.cy + BitVec.ofNat 64 s.params.q } := by
  unfold advanceScanline
  dsimp only
  split
  · rfl
  · split <;> rfl

@[simp] theorem advanceScanline_params (s : State) : (advanceScanline s).params = s.params := by
  rw [advanceScanline_frame]

@[simp] theorem advanceScanline_ctrl (s : State) : (advanceScanline s).ctrl = s.ctrl := by rw [advanceScanline_frame]

@[simp] theorem advanceScanline_mask (s : State) : (advanceScanline s).mask = s.mask := by rw [advanceScanline_frame]

@[simp] theorem advanceScanline_fault (s : State) : (advanceScanline s).fault = s.fault := by rw [advanceScanline_frame]

@[simp] theorem advanceScanline_cy (s : State) : (advanceScanline s).cy = s.cy + BitVec.ofNat 64 s.params.q := by
  rw [advanceScanline_frame]

/-- An iteration that is due adds exactly Q to `cy`, with no wrap (R50, R246). -/
theorem advanceScanline_cy_toNat {s : State} {target : Cycles} (h : due target s) :
    (advanceScanline s).cy.toNat = s.cy.toNat + s.params.q := by
  have := target.isLt
  unfold due at h
  rw [advanceScanline_cy, BitVec.toNat_add, BitVec.toNat_ofNat]
  omega

/-- The scanline after an iteration (R243, R245); V is below N, so the three cases exclude each other. -/
theorem advanceScanline_scanline (s : State) :
    (advanceScanline s).scanline = if s.scanline + 1 = s.params.n then 0 else s.scanline + 1 := by
  have := s.params.v_high
  unfold advanceScanline
  dsimp only
  split
  · rw [if_neg (by omega)]
  · split <;> rfl

/-- The status register after an iteration (R244, R245). -/
theorem advanceScanline_status (s : State) :
    (advanceScanline s).status =
      if s.scanline + 1 = s.params.v then enterVblank s.status
      else if s.scanline + 1 = s.params.n then leaveVblank s.status else s.status := by
  unfold advanceScanline
  dsimp only
  split
  · rfl
  · split <;> rfl

/-! ### The loop (R240) -/

@[simp] theorem stepLoop_zero (target : Cycles) (m : Marks) (s : State) :
    stepLoop target 0 m s = returning (.stepped m.fc m.nmi) s := rfl

theorem stepLoop_stop {target : Cycles} {m : Marks} {s : State} (n : Nat) (h : ¬ due target s) :
    stepLoop target n m s = returning (.stepped m.fc m.nmi) s := by
  cases n with
  | zero => rfl
  | succ n => simp only [stepLoop, if_neg h]

theorem stepLoop_fault {target : Cycles} {m : Marks} {s : State} {r : FaultRecord} (n : Nat) (h : due target s)
    (hf : (renderCurrent s).fault = some r) : stepLoop target (n + 1) m s = renderCurrent s := by
  simp only [stepLoop, if_pos h, hf]

theorem stepLoop_next {target : Cycles} {m : Marks} {s : State} (n : Nat) (h : due target s)
    (hf : (renderCurrent s).fault = none) :
    stepLoop target (n + 1) m s =
      stepLoop target n (markScanline (renderCurrent s) m) (advanceScanline (renderCurrent s)) := by
  simp only [stepLoop, if_pos h, hf]

/-- An iteration is due exactly while the count of iterations is not zero (R241). -/
theorem iterations_pos {target : Cycles} {s : State} : 0 < iterations target s ↔ due target s := by
  have := s.params.q_pos
  unfold iterations due
  rw [Nat.div_pos_iff]
  omega

/-- After an iteration one less is left. -/
theorem iterations_advance {target : Cycles} {s t : State} (h : due target s)
    (hcy : t.cy.toNat = s.cy.toNat + s.params.q) (hp : t.params = s.params) :
    iterations target s = iterations target t + 1 := by
  have := s.params.q_pos
  unfold iterations due at *
  rw [hp, hcy, show target.toNat - s.cy.toNat = (target.toNat - (s.cy.toNat + s.params.q)) + s.params.q by omega,
    Nat.add_div_right _ (by omega)]

/-- A STEP of a running block answers a next state: the end of its loop. -/
theorem execStep_running {s : State} (h : s.fault = none) (target : Cycles) :
    execStep target s = .next (stepLoop target (iterations target s) ⟨false, false⟩ s) :=
  transact_running h

end Sys2Proof.Machine
end

