-- ==== Sys2Proof/Laws/Exec.lean ====
section
/-! SUPPORT. Laws/Exec.lean: said once for all transactions: each is an effect, a function of states, behind the one check
that the block is not halted (R266). -/

namespace Sys2Proof.Machine

/-- The effect of each transaction on a block that is not halted. -/
def effect : Instr → State → State
  | .wCtrl d, s => returning .nothing (storeCtrl d s)
  | .wMask d, s => returning .nothing { s with mask := d }
  | .wStatus _, s => returning .nothing s
  | .wOamaddr d, s => returning .nothing { s with oamAddr := d }
  | .wOamdata d, s => returning .nothing { oamStore s s.oamAddr d with oamAddr := s.oamAddr + 1#8 }
  | .wScroll d, s => returning .nothing (storeScroll d s)
  | .wAddr d, s => returning .nothing (storeAddr d s)
  | .wData d, s => storeData d s
  | .rCtrl, s => returning (.byte s.ctrl) s
  | .rMask, s => returning (.byte s.mask) s
  | .rStatus, s => returning (.byte (statusByte s)) (resetLatches s)
  | .rOamaddr, s => returning (.byte 0x00#8) s
  | .rOamdata, s => raise (.oamdataRead s.oamAddr) s
  | .rScroll, s => returning (.byte 0x00#8) s
  | .rAddr, s => returning (.byte 0x00#8) s
  | .rData, s => loadData s
  | .oamW a d, s => returning .nothing (oamStore s a d)
  | .oamR a, s => returning (.byte (oamLoad s a)) s
  | .step target, s => stepLoop target (iterations target s) ⟨false, false⟩ s
  | .frame, s => returning (.frame s.frame) s

theorem exec_eq_transact (i : Instr) (s : State) : exec i s = transact s (effect i) := by
  cases i <;> rfl

/-- What a next state of a transaction is, and where it came from. -/
theorem exec_next {i : Instr} {s t : State} (h : exec i s = .next t) : s.fault = none ∧ t = effect i s :=
  transact_next (exec_eq_transact i s ▸ h)

/-- No transaction is refused once it is decoded. -/
theorem exec_not_refused (i : Instr) (s : State) (r : Refusal) : exec i s ≠ .refused r := by
  rw [exec_eq_transact]
  exact transact_not_refused r

end Sys2Proof.Machine
end

