-- ==== Sys2Proof/Laws/Words.lean ====
section
/-! SUPPORT. Laws/Words.lean: the fields of a word written out from them (R90), and what the decoder does field by
field (R97). -/

namespace Sys2Proof

/-- A word from the five fields of R90. -/
abbrev wordOf (port : BitVec 2) (rw z : BitVec 1) (a d : Byte) : TWord := port ++ rw ++ z ++ a ++ d

variable (port : BitVec 2) (rw z : BitVec 1) (a d : Byte)

theorem portField_wordOf : portField (wordOf port rw z a d) = port := by
  apply BitVec.eq_of_getLsbD_eq
  intro i hi
  simp only [portField, BitVec.getLsbD_extractLsb', BitVec.getLsbD_append, hi, decide_true, Bool.true_and]
  split_ifs <;> first | omega | (congr 1; omega)

theorem rwField_wordOf : rwField (wordOf port rw z a d) = rw := by
  apply BitVec.eq_of_getLsbD_eq
  intro i hi
  simp only [rwField, BitVec.getLsbD_extractLsb', BitVec.getLsbD_append, hi, decide_true, Bool.true_and]
  split_ifs <;> first | omega | (congr 1; omega)

theorem zField_wordOf : zField (wordOf port rw z a d) = z := by
  apply BitVec.eq_of_getLsbD_eq
  intro i hi
  simp only [zField, BitVec.getLsbD_extractLsb', BitVec.getLsbD_append, hi, decide_true, Bool.true_and]
  split_ifs <;> first | omega | (congr 1; omega)

theorem aField_wordOf : aField (wordOf port rw z a d) = a := by
  apply BitVec.eq_of_getLsbD_eq
  intro i hi
  simp only [aField, BitVec.getLsbD_extractLsb', BitVec.getLsbD_append, hi, decide_true, Bool.true_and]
  split_ifs <;> first | omega | (congr 1; omega)

theorem dField_wordOf : dField (wordOf port rw z a d) = d := by
  apply BitVec.eq_of_getLsbD_eq
  intro i hi
  simp only [dField, BitVec.getLsbD_extractLsb', BitVec.getLsbD_append, hi, decide_true, Bool.true_and]
  split_ifs <;> first | omega | (congr 1; omega)

/-- A word is what its fields make of it. -/
theorem wordOf_fields (w : TWord) : wordOf (portField w) (rwField w) (zField w) (aField w) (dField w) = w := by
  apply BitVec.eq_of_getLsbD_eq
  intro i hi
  simp only [wordOf, portField, rwField, zField, aField, dField, BitVec.getLsbD_append, BitVec.getLsbD_extractLsb']
  interval_cases i <;> simp

/-- `a[2:0]` of an address byte written as its ignored bits and its index. -/
theorem regIndex_append (hi : BitVec 5) (idx : BitVec 3) : regIndex (hi ++ idx) = idx := by
  apply BitVec.eq_of_getLsbD_eq
  intro i h
  simp only [regIndex, BitVec.getLsbD_extractLsb', BitVec.getLsbD_append, h, decide_true, Bool.true_and, Nat.zero_add,
    if_true]

/-- A register-window word in the five fields of R90. -/
theorem regWord_eq (rw : BitVec 1) (idx : BitVec 3) (aHigh : BitVec 5) (d : Byte) :
    regWord rw idx aHigh d = wordOf 0#2 rw 0#1 (aHigh ++ idx) d := by
  apply BitVec.eq_of_getLsbD_eq
  intro i hi
  simp only [regWord, wordOf, BitVec.getLsbD_append]
  interval_cases i <;> simp

/-- What the decoder answers, in the five fields of the word (R97). -/
theorem decode_wordOf (t : Cycles) :
    decode (wordOf port rw z a d) t =
      if z = 1#1 then .error .zBit
      else match port with
        | 0#2 => .ok (if rw = 0#1 then storeOf (regIndex a) d else loadOf (regIndex a))
        | 1#2 => .ok (if rw = 0#1 then .oamW a d else .oamR a)
        | 2#2 => if a = 0#8 ∧ d = 0#8 then .ok (if rw = 0#1 then .step t else .frame) else .error .controlReserved
        | 3#2 => .error .portReserved := by
  unfold decode
  rw [zField_wordOf, portField_wordOf, rwField_wordOf, aField_wordOf, dField_wordOf] <;> rfl

end Sys2Proof
end

