-- ==== Sys2Proof/Laws/PerInstr.lean ====
section
/-! SUPPORT. Laws/PerInstr.lean: facts about every instruction, one lemma per constructor.

The family `TableRow`: the row of spec/opcode_table.json that has the instruction's mnemonic matches the instruction's
word, whatever its ignored bits are. -/

namespace Sys2Proof.Laws

/-- The bits a register-window row cares for leave port, direction, `z` and index. -/
theorem regWord_and_care (rw : BitVec 1) (idx : BitVec 3) (aHigh : BitVec 5) (d : Byte) :
    regWord rw idx aHigh d &&& 0xF0700 = regWord rw idx 0 0 := by
  apply BitVec.eq_of_getLsbD_eq
  intro i hi
  simp only [regWord, BitVec.getLsbD_and, BitVec.getLsbD_append]
  interval_cases i <;> simp

/-- The bits an OAM-port row cares for leave port, direction and `z`. -/
theorem oamWord_and_care (rw : BitVec 1) (a d : Byte) : oamWord rw a d &&& 0xF0000 = oamWord rw 0 0 := by
  apply BitVec.eq_of_getLsbD_eq
  intro i hi
  simp only [oamWord, BitVec.getLsbD_and, BitVec.getLsbD_append]
  interval_cases i <;> simp

namespace TableRow

/-- The table has a row of the instruction's mnemonic, and the row matches the instruction's word. -/
def Statement (i : Instr) : Prop :=
  ∃ row ∈ opcodeTable, row.mnemonic = i.mnemonic ∧ ∀ aHigh dLow, encodeWith aHigh dLow i &&& row.care = row.value

theorem wCtrl (d : Byte) : Statement (.wCtrl d) :=
  ⟨⟨"W.CTRL", 0x00000, 0xF0700⟩, by decide, rfl, fun aHigh _ => regWord_and_care 0 0 aHigh d⟩

theorem wMask (d : Byte) : Statement (.wMask d) :=
  ⟨⟨"W.MASK", 0x00100, 0xF0700⟩, by decide, rfl, fun aHigh _ => regWord_and_care 0 1 aHigh d⟩

theorem wStatus (d : Byte) : Statement (.wStatus d) :=
  ⟨⟨"W.STATUS", 0x00200, 0xF0700⟩, by decide, rfl, fun aHigh _ => regWord_and_care 0 2 aHigh d⟩

theorem wOamaddr (d : Byte) : Statement (.wOamaddr d) :=
  ⟨⟨"W.OAMADDR", 0x00300, 0xF0700⟩, by decide, rfl, fun aHigh _ => regWord_and_care 0 3 aHigh d⟩

theorem wOamdata (d : Byte) : Statement (.wOamdata d) :=
  ⟨⟨"W.OAMDATA", 0x00400, 0xF0700⟩, by decide, rfl, fun aHigh _ => regWord_and_care 0 4 aHigh d⟩

theorem wScroll (d : Byte) : Statement (.wScroll d) :=
  ⟨⟨"W.SCROLL", 0x00500, 0xF0700⟩, by decide, rfl, fun aHigh _ => regWord_and_care 0 5 aHigh d⟩

theorem wAddr (d : Byte) : Statement (.wAddr d) :=
  ⟨⟨"W.ADDR", 0x00600, 0xF0700⟩, by decide, rfl, fun aHigh _ => regWord_and_care 0 6 aHigh d⟩

theorem wData (d : Byte) : Statement (.wData d) :=
  ⟨⟨"W.DATA", 0x00700, 0xF0700⟩, by decide, rfl, fun aHigh _ => regWord_and_care 0 7 aHigh d⟩

theorem rCtrl : Statement .rCtrl :=
  ⟨⟨"R.CTRL", 0x20000, 0xF0700⟩, by decide, rfl, fun aHigh dLow => regWord_and_care 1 0 aHigh dLow⟩

theorem rMask : Statement .rMask :=
  ⟨⟨"R.MASK", 0x20100, 0xF0700⟩, by decide, rfl, fun aHigh dLow => regWord_and_care 1 1 aHigh dLow⟩

theorem rStatus : Statement .rStatus :=
  ⟨⟨"R.STATUS", 0x20200, 0xF0700⟩, by decide, rfl, fun aHigh dLow => regWord_and_care 1 2 aHigh dLow⟩

theorem rOamaddr : Statement .rOamaddr :=
  ⟨⟨"R.OAMADDR", 0x20300, 0xF0700⟩, by decide, rfl, fun aHigh dLow => regWord_and_care 1 3 aHigh dLow⟩

theorem rOamdata : Statement .rOamdata :=
  ⟨⟨"R.OAMDATA", 0x20400, 0xF0700⟩, by decide, rfl, fun aHigh dLow => regWord_and_care 1 4 aHigh dLow⟩

theorem rScroll : Statement .rScroll :=
  ⟨⟨"R.SCROLL", 0x20500, 0xF0700⟩, by decide, rfl, fun aHigh dLow => regWord_and_care 1 5 aHigh dLow⟩

theorem rAddr : Statement .rAddr :=
  ⟨⟨"R.ADDR", 0x20600, 0xF0700⟩, by decide, rfl, fun aHigh dLow => regWord_and_care 1 6 aHigh dLow⟩

theorem rData : Statement .rData :=
  ⟨⟨"R.DATA", 0x20700, 0xF0700⟩, by decide, rfl, fun aHigh dLow => regWord_and_care 1 7 aHigh dLow⟩

theorem oamW (a d : Byte) : Statement (.oamW a d) :=
  ⟨⟨"OAM.W", 0x40000, 0xF0000⟩, by decide, rfl, fun _ _ => oamWord_and_care 0 a d⟩

theorem oamR (a : Byte) : Statement (.oamR a) :=
  ⟨⟨"OAM.R", 0x60000, 0xF0000⟩, by decide, rfl, fun _ dLow => oamWord_and_care 1 a dLow⟩

theorem step (target : Cycles) : Statement (.step target) :=
  ⟨⟨"STEP", 0x80000, 0xFFFFF⟩, by decide, rfl, fun _ _ => by show controlWord _ &&& _ = _; decide⟩

theorem frame : Statement .frame :=
  ⟨⟨"FRAME", 0xA0000, 0xFFFFF⟩, by decide, rfl, fun _ _ => by show controlWord _ &&& _ = _; decide⟩

end TableRow

end Sys2Proof.Laws
end

