-- ==== Sys2Proof/Tests/Slice0.lean ====
section
/-! SUPPORT. Tests/Slice0.lean: the model's own tests. The expected values are the words of spec/30_encoding.md and the
vectors of spec/95_test_vectors.md, named where they are used; a test marked "hand" is computed by hand from the rule it
names. Each `test_witness_<Name>` gives a state and operands that meet the hypotheses of `Obligations.<Name>` together,
one for each of its clauses. -/

namespace Sys2Proof.Tests

open Sys2Proof.Machine Sys2Proof.Claims

set_option Elab.async false

/-! ## Fixtures -/

/-- A palette table with 64 different entries, so that the tests need not evaluate the open one. -/
def table : List Rgb := (List.range 64).map fun i => ⟨BitVec.ofNat 8 i, 0x55, 0xAA⟩

/-- The default parameters with that table. -/
def params : Params := { Config.default with paletteRgb := table, palette_len := by decide }

/-- The construction state. -/
def base : State := State.construct params

/-- A state with something in every element: vblank and overflow set, both latches in their second-write state, the
address at 0x2C05, the cursor at 0xFF. -/
def busy : State := { base with
  ctrl := 0x84, mask := 0x18, status := 0xA0, oamAddr := 0xFF, scroll := ⟨0x12, 0x34, .y⟩, addr := ⟨0x2C05, .lo⟩
  sxFine := 0x12, sxNt := 1, syFine := 0x34, syNt := 0, dataBuf := 0x77, scanline := 241, cy := 27474
  nametable := [(0x005, 0x66), (0x405, 0x99)], palette := [(0, 0x0F), (5, 0x15)], oam := [(4, 0x20), (0xFF, 0x44)]
  frame := [(0, 0x01)] }

/-- `busy` with the address at `a` and the latch in its first-write state. -/
def at_ (a : VramAddr) : State := { busy with addr := ⟨a, .hi⟩ }

/-- A pattern source: `CHR_F` of the spec's fixtures, in bank 0, for tiles 1 to 5. -/
def chrF : Memory 8 :=
  (List.range 8).map (fun r => (16 + r, 0xFF#8)) ++ (List.range 8).map (fun r => (40 + r, 0xFF#8)) ++
  (List.range 16).map (fun r => (48 + r, 0xFF#8)) ++ (List.range 4).map (fun r => (64 + r, 0xF0#8)) ++
  (List.range 8).map (fun r => (80 + r, 0x0F#8))

/-- `PAL_F` of the spec's fixtures. -/
def palF : Memory 6 := ((List.range 32).filter (· ≠ 0x10)).map fun i => (i, BitVec.ofNat 6 (0x20 + i))

/-- OAM with the records given from slot 0 on, every other slot's Y 0xFF. -/
def sprites (records : List (Byte × Byte × Byte × Byte)) : Memory 8 :=
  ((List.range 64).flatMap fun k =>
    let r := records.getD k (0xFF, 0, 0, 0)
    [(4 * k, r.1), (4 * k + 1, r.2.1), (4 * k + 2, r.2.2.1), (4 * k + 3, r.2.2.2)]).filter (·.2 ≠ 0)

/-- The fixture of the pixel vectors: both layers enabled, the nametable cells and sprite records given. -/
def scene (nt : Memory 8) (records : List (Byte × Byte × Byte × Byte)) : State :=
  { base with mask := 0x18, chr := chrF, palette := palF, nametable := nt, oam := sprites records }

/-- A slot that no visible scanline holds. -/
def off : Byte × Byte × Byte × Byte := (0xFF, 0, 0, 0)

/-- The palette index of a pixel of the scene, as the scanline procedure resolves it. -/
def indexAt (s : State) (x y : Nat) : Option Nat :=
  match pixel s (evaluate s y).slots x y with
  | .ok p => some p.index.toNat
  | .error _ => none

/-- Whether that pixel sets sprite-zero hit. -/
def hitAt (s : State) (x y : Nat) : Option Bool :=
  match pixel s (evaluate s y).slots x y with
  | .ok p => some p.zeroHit
  | .error _ => none

/-- The transaction has a next state with the property `p`. -/
def gives (o : Host.Outcome State Fault Refusal) (p : State → Bool) : Bool :=
  match o with
  | .next t => p t
  | .fault _ | .refused _ => false

/-! ## Decoding: words written out from R90 to R93, as port, rw, z, a, d -/

theorem test_decode_wCtrl : decode 0b00_0_0_00000_000_10000011 0 = .ok (.wCtrl 0x83) := rfl
theorem test_decode_wMask : decode 0b00_0_0_00000_001_00011000 0 = .ok (.wMask 0x18) := rfl
theorem test_decode_wStatus : decode 0b00_0_0_00000_010_11111111 0 = .ok (.wStatus 0xFF) := rfl
theorem test_decode_wOamaddr : decode 0b00_0_0_00000_011_11111110 0 = .ok (.wOamaddr 0xFE) := rfl
theorem test_decode_wOamdata : decode 0b00_0_0_00000_100_00000001 0 = .ok (.wOamdata 0x01) := rfl
theorem test_decode_wScroll : decode 0b00_0_0_00000_101_00010010 0 = .ok (.wScroll 0x12) := rfl
theorem test_decode_wAddr : decode 0b00_0_0_00000_110_00111111 0 = .ok (.wAddr 0x3F) := rfl
/-- V-R14: `W.DATA@0F 0x80`; `a[7:3]` is ignored. -/
theorem test_decode_wData : decode 0b00_0_0_00001_111_10000000 0 = .ok (.wData 0x80) := rfl
theorem test_decode_rCtrl : decode 0b00_1_0_00000_000_00000000 0 = .ok .rCtrl := rfl
theorem test_decode_rMask : decode 0b00_1_0_00000_001_00000000 0 = .ok .rMask := rfl
/-- `d` of a load is ignored. -/
theorem test_decode_rStatus : decode 0b00_1_0_11111_010_11111111 0 = .ok .rStatus := rfl
theorem test_decode_rOamaddr : decode 0b00_1_0_00000_011_00000000 0 = .ok .rOamaddr := rfl
theorem test_decode_rOamdata : decode 0b00_1_0_00000_100_00000000 0 = .ok .rOamdata := rfl
theorem test_decode_rScroll : decode 0b00_1_0_00000_101_00000000 0 = .ok .rScroll := rfl
theorem test_decode_rAddr : decode 0b00_1_0_00000_110_00000000 0 = .ok .rAddr := rfl
theorem test_decode_rData : decode 0b00_1_0_00000_111_00000000 0 = .ok .rData := rfl
/-- Program P4: word 40C32 is `OAM.W 0x0C, 50`. -/
theorem test_decode_oamW : decode 0b01_0_0_00001100_00110010 0 = .ok (.oamW 0x0C 50) := rfl
theorem test_decode_oamR : decode 0b01_1_0_00100000_00000000 0 = .ok (.oamR 0x20) := rfl
theorem test_decode_step : decode 0b10_0_0_00000000_00000000 29868 = .ok (.step 29868) := rfl
theorem test_decode_frame : decode 0b10_1_0_00000000_00000000 7 = .ok .frame := rfl

/-- V-X4: the three reserved groups. -/
theorem test_decode_reserved : decode 0xC0000 0 = .error .portReserved ∧ decode 0x10000 0 = .error .zBit ∧
    decode 0x80001 0 = .error .controlReserved ∧ decode 0xA0100 0 = .error .controlReserved := by decide

/-- The host's numbering: STEP's target stands from bit 24 on, and a word alone leaves it zero. -/
theorem test_decodeTableWord : decodeTableWord 88 (0x80000 + 114 * 2 ^ 24) = some (.step 114) ∧
    decodeTableWord 24 0x80000 = some (.step 0) ∧ decodeTableWord 24 0x00F80 = some (.wData 0x80) ∧
    decodeTableWord 24 0x10000 = none := by decide

/-- A word placed with `withFetchWord` is what the next step of the machine runs. -/
theorem test_withFetchWord : gives (step (State.reset.withFetchWord 24 0x00118)) (fun t => t.mask == 0x18) = true := by
  decide

/-! ## Well-formedness: an ill-formed pseudo-transaction for each check of R99 -/

theorem test_wellFormed_sprite : (Pseudo.sprite 63 0 0 0 0).wellFormed = true ∧ (Pseudo.sprite 64 0 0 0 0).wellFormed = false := by
  decide
theorem test_wellFormed_dma : (Pseudo.dma (List.replicate 256 0xFF)).wellFormed = true ∧
    (Pseudo.dma (List.replicate 255 0xFF)).wellFormed = false := by decide +kernel
theorem test_wellFormed_vpoke : (Pseudo.vpoke 0x2000 [0x11]).wellFormed = true ∧ (Pseudo.vpoke 0x2000 []).wellFormed = false := by
  decide

/-- R98's text for a transaction. -/
theorem test_text : (Instr.oamW 0x10 0x55).text = "OAM.W 0x10, 0x55" ∧ (Instr.step 29868).text = "STEP 29868" := by
  decide +kernel

/-! ## Register stores -/

/-- V-R1 -/
theorem test_wCtrl : gives (exec (.wCtrl 0x03) base) (fun t =>
    t.ctrl == 0x03 && t.sxNt == 1 && t.syNt == 1 && scrollX t == 256 && scrollY t == 240) = true := by decide

/-- V-R11 -/
theorem test_wMask : gives (execAll [.wMask 0x18, .rMask] base) (fun t => t.reply == .byte 0x18) = true := by decide

/-- V-R12 -/
theorem test_wStatus : gives (execAll [.wStatus 0xFF, .rStatus] base) (fun t => t.reply == .byte 0x00) = true := by decide

/-- V-R8 -/
theorem test_wOamaddr_wOamdata : gives (execAll [.wOamaddr 0xFF, .wOamdata 0xAA, .wOamdata 0xBB] base) (fun t =>
    t.oam == [(0x00, 0xBB), (0xFF, 0xAA)] && t.oamAddr == 0x01) = true := by decide

/-- V-R2 -/
theorem test_wScroll : gives (execAll [.wCtrl 0x01, .wScroll 0x12, .wScroll 0x34] base) (fun t =>
    scrollX t == 274 && scrollY t == 52 && t.scroll.next == .x) = true := by decide

/-- V-R6: the Hi write keeps the low byte. -/
theorem test_wAddr_hi_keeps_low : gives (execAll [.wAddr 0x21, .wAddr 0x55, .wAddr 0x3F] base) (fun t =>
    t.addr == ⟨0x3F55, .lo⟩) = true := by decide

/-- V-R4: the Lo write copies bit 10 into `sx_nt`. -/
theorem test_wAddr_lo_sets_sxNt : gives (execAll [.wAddr 0x24, .wAddr 0x00] base) (fun t =>
    t.addr == ⟨0x2400, .hi⟩ && t.sxNt == 1) = true := by decide

/-- V-R16: the increment of 32. -/
theorem test_wData_inc32 : gives (execAll [.wCtrl 0x04, .wAddr 0x20, .wAddr 0x00, .wData 0x11, .wData 0x22] base) (fun t =>
    t.nametable == [(0, 0x11), (32, 0x22)] && t.addr.val == 0x2040) = true := by decide

/-- V-M8: the last palette address, then the fault at 0x4000. -/
theorem test_wData_fault : gives (execPseudo (.vpoke 0x3FFF [0x01, 0x02]) base) (fun t =>
    t.palette == [(0x1F, 0x01)] && t.addr.val == 0x4000 && t.reply == .fault (.vramRange 0x4000 .store)) = true := by decide

/-! ## Register loads -/

/-- V-R1's byte, read back raw (hand, R119). -/
theorem test_rCtrl : gives (execAll [.wCtrl 0x43, .rCtrl] base) (fun t => t.reply == .byte 0x43) = true := by decide

/-- V-R11 with the undefined bits set (hand, R120). -/
theorem test_rMask : gives (execAll [.wMask 0xE7, .rMask] base) (fun t => t.reply == .byte 0xE7) = true := by decide

/-- V-R13: no flag is cleared; both latches go back (hand, R45). -/
theorem test_rStatus : gives (execAll [.rStatus, .rStatus] busy) (fun t =>
    t.reply == .byte 0xA0 && t.status == 0xA0 && t.scroll == ⟨0x12, 0x34, .x⟩ && t.addr == ⟨0x2C05, .hi⟩) = true := by decide

/-- V-R10 -/
theorem test_rOamaddr : gives (execAll [.wOamaddr 0x09, .rOamaddr] base) (fun t =>
    t.reply == .byte 0x00 && t.oamAddr == 0x09) = true := by decide

/-- V-R9 and V-F5: the fault, and the halted block after it. -/
theorem test_rOamdata : gives (execAll [.wOamaddr 0x05, .rOamdata] base) (fun t =>
    t.reply == .fault (.oamdataRead 0x05) && t.oamAddr == 0x05) = true ∧
    execAll [.wOamaddr 0x05, .rOamdata, .rStatus] base = .fault (.halted (.oamdataRead 0x05)) := ⟨by decide, rfl⟩

/-- V-R10 -/
theorem test_rScroll : gives (exec .rScroll busy) (fun t => t.reply == .byte 0x00 && t.scroll == busy.scroll) = true := by decide

/-- V-R10 -/
theorem test_rAddr : gives (exec .rAddr busy) (fun t => t.reply == .byte 0x00 && t.addr == busy.addr) = true := by decide

/-- V-R18: palette loads are direct. -/
theorem test_rData_palette : gives (execPseudo (.vpoke 0x3F01 [0x2C]) base) (fun s =>
    gives (execPseudo (.setAddr 0x3F01) s) fun s => gives (exec .rData s) fun t =>
      t.reply == .byte 0x2C && t.addr.val == 0x3F02 && t.dataBuf == 0x00 && t.sxNt == 1) = true := by decide

/-- S1: the stale buffer, then the mirrored byte. -/
theorem test_rData_buffered : gives (execPseudo (.vpoke 0x2005 [0x77]) base) (fun s =>
    gives (execPseudo (.setAddr 0x2805) s) fun s => gives (exec .rData s) fun t =>
      t.reply == .byte 0x00 && t.dataBuf == 0x77 &&
        gives (exec .rData t) fun u => u.reply == .byte 0x77 && u.addr.val == 0x2807) = true := by decide

/-! ## VRAM decode -/

/-- S2 and S3: the asymmetric alias. -/
theorem test_palette_alias : gives (execPseudo (.vpoke 0x3F10 [0xFF]) base) (fun t =>
    t.palette == [(0x00, 0x3F)] && t.addr.val == 0x3F11 && vramLoad t 0x3F10 == .ok 0x00 && vramLoad t 0x3F00 == .ok 0x3F &&
    vramLoad t 0x3F20 == .ok 0x3F) = true := by decide

/-- V-M3 and V-M4: the last nametable address, and 0x14 an ordinary cell. -/
theorem test_vram_cells : gives (execPseudo (.vpoke 0x3EFF [0x31, 0x3F]) base) (fun t =>
    t.nametable == [(0x6FF, 0x31)] && t.palette == [(0, 0x3F)]) = true ∧
    gives (execPseudo (.vpoke 0x3F14 [0x21]) base) (fun t => vramLoad t 0x3F04 == .ok 0 && vramLoad t 0x3F14 == .ok 0x21) = true := by
  decide

/-! ## External ports -/

/-- V-X2 -/
theorem test_oamW : gives (execAll [.oamW 0x10 0x55, .wOamaddr 0x10, .wOamdata 0x66, .oamR 0x10] base) (fun t =>
    t.reply == .byte 0x66 && t.oamAddr == 0x11) = true := by decide

/-- V-X1 -/
theorem test_oamR : gives (execAll [.oamW 0x10 0x55, .oamR 0x10] base) (fun t =>
    t.reply == .byte 0x55 && t.oamAddr == 0x00) = true := by decide

/-- V-X3, the first and the last byte; a frame that holds something (hand, R162). -/
theorem test_frame : gives (exec .frame base) (fun t => t.reply == .frame []) = true ∧
    gives (exec .frame busy) (fun t => t.reply == .frame [(0, 0x01)]) = true := by decide

/-! ## Sprites -/

/-- V-S1, V-S2 and V-S3 -/
theorem test_onScanline :
    (let s := scene [] [(11, 1, 0, 5), (0xFA, 1, 0, 5)]
     ([10, 11, 18, 19].map (onScanline s 0) = [false, true, true, false]) ∧
     ([10, 11, 26, 27].map (onScanline { s with ctrl := 0x20 } 0) = [false, true, true, false]) ∧
     ([0, 5, 250, 255].map (onScanline s 1) = [false, false, true, true])) := by decide +kernel

/-- V-S4 to V-S8 -/
theorem test_sprite_fields :
    (let s := scene [] [off, (0, 1, 0, 250)]
     let p : Sprite := ⟨0, 0x2B, 0x23, 0⟩
     let q : Sprite := ⟨0, 0x2B, 0xDC, 0⟩
     ([249, 250, 255].map (inBoundingBox s 1 · 0) = [false, true, true]) ∧
     (p.paletteBank, p.behind, p.flipH, p.flipV) = (7, true, false, false) ∧
     (q.paletteBank, q.behind, q.flipH, q.flipV) = (4, false, true, true) ∧
     spriteTiles { s with ctrl := 0x20 } p = [0x12A0, 0x12B0] ∧ spriteTiles { s with ctrl := 0x08 } p = [0x12B0]) := by
  decide +kernel

/-- V-E2, V-E3 and V-E4 -/
theorem test_evaluate :
    evaluate (scene [] (List.replicate 9 (20, 0, 0, 0))) 20 = ⟨[0, 1, 2, 3, 4, 5, 6, 7], true⟩ ∧
    evaluate (scene [] (List.replicate 8 (20, 0, 0, 0))) 20 = ⟨[0, 1, 2, 3, 4, 5, 6, 7], false⟩ ∧
    evaluate (scene [] ([(13, 0, 0, 0), (20, 0, 0, 0), (20, 0, 0, 0), off] ++ List.replicate 7 (20, 0, 0, 0))) 20 =
      ⟨[0, 1, 2, 4, 5, 6, 7, 8], true⟩ := by decide +kernel

/-! ## Pixels -/

/-- V-B4, V-B8, V-B12, V-B14 and V-B15 -/
theorem test_background_addresses :
    (let row (sxNt syNt : BitVec 1) (sxFine syFine : Byte) (x y : Nat) :=
       let s := { base with sxNt := sxNt, syNt := syNt, sxFine := sxFine, syFine := syFine }
       let t := bgTile (bgXp s x) (bgYp s y)
       (bgXp s x, bgYp s y, t.tileAddr, t.attrAddr, t.attrShift)
     row 0 0 0 0 255 239 = (255, 239, 0x23BF, 0x23FF, 2) ∧ row 0 0 10 0 250 0 = (260, 0, 0x2400, 0x27C0, 0) ∧
     row 0 1 0 0 0 239 = (0, 479, 0x2BA0, 0x2BF8, 0) ∧ row 0 1 0 255 0 0 = (0, 15, 0x2020, 0x23C0, 0) ∧
     row 1 1 37 12 100 100 = (393, 352, 0x2DD1, 0x2FDC, 4)) := by decide +kernel

/-- V-P1 and V-P2 -/
theorem test_background_pixels :
    [0, 7, 8].map (indexAt (scene [(0, 1)] []) · 0) = [some 1, some 1, some 0] ∧
    (let s := scene [(0, 3), (2, 3), (0x40, 3), (0x42, 3), (0x3C0, 0xE4)] []
     [indexAt s 0 0, indexAt s 16 0, indexAt s 0 16, indexAt s 16 16] = [some 3, some 7, some 0xB, some 0xF]) := by decide +kernel

/-- V-P9, V-P16, V-P19, V-P20 and V-P23 -/
theorem test_sprite_pixels :
    [39, 40, 47, 48].map (indexAt (scene [] [off, (40, 2, 1, 40)]) · 40) = [some 0, some 0x16, some 0x16, some 0] ∧
    [0, 4].map (indexAt (scene [] [off, (0, 4, 0, 0), (0, 2, 3, 0)]) · 0) = [some 0x11, some 0x1E] ∧
    [0, 3, 4, 7].map (indexAt (scene [] [off, (0, 4, 0x40, 0)]) · 0) = [some 0, some 0, some 0x11, some 0x11] ∧
    (let s := scene [] [off, (0, 4, 0x80, 0)]
     [indexAt s 0 0, indexAt s 0 4, indexAt s 3 4, indexAt s 4 4] = [some 0, some 0x11, some 0x11, some 0]) ∧
    indexAt (scene [] [off, (0, 3, 3, 0)]) 0 0 = some 0x1F := by decide +kernel

/-- V-P10, V-P11, V-P12 and V-P17 -/
theorem test_composite :
    indexAt (scene [(0, 1)] [off, (0, 2, 0, 0)]) 0 0 = some 0x12 ∧
    indexAt (scene [(0, 1)] [off, (0, 2, 0x20, 0)]) 0 0 = some 0x01 ∧
    indexAt (scene [] [off, (0, 2, 0x20, 0)]) 0 0 = some 0x12 ∧
    indexAt (scene [(0, 1)] [off, (0, 1, 0x20, 0), (0, 2, 0, 0)]) 0 0 = some 0x01 := by decide +kernel

/-- V-P13, V-P14 and V-P15 -/
theorem test_zeroHit :
    hitAt (scene [(0, 1)] [(0, 2, 0x20, 0)]) 0 0 = some true ∧ hitAt (scene [] [(0, 2, 0, 0)]) 0 0 = some false ∧
    hitAt { scene [(0, 1)] [(0, 2, 0, 0)] with mask := 0x10 } 0 0 = some false := by decide +kernel

/-! ## STEP -/

/-- V-T4 and V-T5, from scanline 240: vblank entry requests the NMI. -/
theorem test_step_vblank : gives (exec (.step 27474) { base with ctrl := 0x80, status := 0x60, scanline := 240, cy := 27360 })
    (fun t => t.reply == .stepped false true && t.scanline == 241 && t.cy == 27474 && t.status == 0xA0) = true := by
  decide +kernel

/-- V-T10 and V-T11, from V-T5's state: one cycle short, then the frame end. -/
theorem test_step_frame_end :
    gives (exec (.step 27587) busy) (fun t => t.reply == .stepped false false && t.scanline == 241 && t.cy == 27474) = true ∧
    gives (exec (.step 29868) busy) (fun t =>
      t.reply == .stepped true false && t.scanline == 0 && t.cy == 29868 && t.status == 0x20) = true := by decide +kernel

/-- V-E6: the evaluator runs with rendering disabled, and the row's columns show the backdrop, three bytes each. -/
theorem test_row_disabled : (evaluate base 0).ninth = true ∧ raiseOvf true 0x00 = 0x20 ∧
    columnsFrom base [0, 1, 2, 3, 4, 5, 6, 7] 0 [0, 1] = ⟨[0, 0x55, 0xAA, 0, 0x55, 0xAA], false, none⟩ := by decide +kernel

/-- V-P26, by a STEP over scanline 10. -/
theorem test_step_8x16 :
    gives (exec (.step 1254) { scene [] [off, off, off, (10, 1, 0, 5)] with ctrl := 0x20, scanline := 10, cy := 1140 }) (fun t =>
      t.reply == .fault (.sprite8x16 10 5 3) && t.fault == some (.sprite8x16 10 5 3)) = true := by decide +kernel

/-- V-T2 and V-E6: the first scanline, with both layers disabled. -/
theorem test_step_visible : gives (exec (.step 114) base) (fun t =>
    t.reply == .stepped false false && t.scanline == 1 && t.cy == 114 && t.status == 0x20 &&
    t.frame.read 1 == 0x55 && t.frame.read 767 == 0xAA && t.frame.read 768 == 0) = true := by decide +kernel

/-! ## Witnesses

`gives o p = true` says that `o` is a next state with the property `p`. -/

/-- `s` with one transaction still to come. -/
def next (s : State) (w : TWord) (t : Cycles) : State := { s with inbox := [⟨w, t, [(0x10, 0x5A)]⟩] }

/-- `busy`, halted. -/
def halted : State := { busy with fault := some (.oamdataRead 0xFF) }

theorem test_witness_StepPerformsTheNextTransaction : busy.inbox = [] ∧
    (next busy 0x00118 0).inbox = [⟨0x00118, 0, [(0x10, 0x5A)]⟩] ∧ decode 0x00118 0 = .ok (.wMask 0x18) ∧
    (next busy 0xC0000 0).inbox = [⟨0xC0000, 0, [(0x10, 0x5A)]⟩] ∧ decode 0xC0000 0 = .error .portReserved := by decide

theorem test_witness_DecodeEncodeRoundTrip : (Instr.step 0xFFFFFFFFFFFFFFFF).wellFormed = true ∧
    (Instr.oamW 0xFF 0xFF).wellFormed = true ∧ Instr.rStatus.wellFormed = true := by decide

theorem test_witness_AcceptedWordIsAnEncoding : decode 0x2FAFF 0 = .ok .rStatus ∧ decode 0x80000 5 = .ok (.step 5) := by decide

/-- A word at each end of a row, and one just outside it. -/
theorem test_witness_DecoderAgreesWithOpcodeTable : (⟨"W.DATA", 0x00700, 0xF0700⟩ : OpcodeRow) ∈ opcodeTable ∧
    (0x00700#20 &&& 0xF0700 = 0x00700) ∧ (0x0FFFF#20 &&& 0xF0700 = 0x00700) ∧ (0x10700#20 &&& 0xF0700 ≠ 0x00700) := by decide

/-- The boundary words of the three reserved groups, and the accepted words beside them. -/
theorem test_witness_ReservedWordsAreRefused :
    [0x10000, 0x7FFFF, 0xC0000, 0xFFFFF, 0x80001, 0x8FFFF, 0xA0001, 0xAFFFF].map (fun w => step (next busy w 0)) =
      [.refused (.reservedWord .zBit), .refused (.reservedWord .zBit), .refused (.reservedWord .portReserved),
       .refused (.reservedWord .zBit), .refused (.reservedWord .controlReserved), .refused (.reservedWord .controlReserved),
       .refused (.reservedWord .controlReserved), .refused (.reservedWord .controlReserved)] ∧
    [0x0FFFF, 0x2FFFF, 0x4FFFF, 0x6FFFF, 0x80000, 0xA0000].all (fun w => gives (step (next busy w 0)) fun _ => true) = true := by
  exact ⟨rfl, by decide⟩

theorem test_witness_StoreCtrl : busy.fault = none ∧ busy.ctrl ≠ 0x03 := by decide
theorem test_witness_StoreMask : busy.fault = none ∧ busy.mask ≠ 0x1E := by decide
theorem test_witness_StoreStatusIsANoOp : regIndex 0x02 = 2#3 ∧ regIndex 0xFA = 2#3 ∧ busy.fault = none := by decide
theorem test_witness_StoreOamAddr : regIndex 0x03 = 3#3 ∧ regIndex 0xFB = 3#3 ∧ busy.fault = none := by decide
theorem test_witness_StoreOamData : regIndex 0x04 = 4#3 ∧ regIndex 0xFC = 4#3 ∧ busy.fault = none ∧ busy.oamAddr = 0xFF := by
  decide
theorem test_witness_StoreScroll : base.fault = none ∧ base.scroll.next = .x ∧ busy.fault = none ∧ busy.scroll.next = .y := by decide
theorem test_witness_StoreAddr : base.fault = none ∧ base.addr.next = .hi ∧ busy.fault = none ∧ busy.addr.next = .lo := by decide

/-- The addresses at which the clauses meet: pattern, nametable and palette, index 0x10 and its neighbour. -/
theorem test_witness_StoreDataWritesItsCellAndAdvances :
    [0x0000, 0x1FFF, 0x2000, 0x3EFF, 0x3F00, 0x3F10, 0x3F14, 0x3FF0, 0x3FFF].all (fun a =>
      decide ((at_ a).fault = none ∧ (at_ a).addr.val.toNat < 0x4000)) = true := by decide

theorem test_witness_DataAccessFrom4000Halts :
    [0x4000, 0xFFFF].all (fun a => decide ((at_ a).fault = none ∧ 0x4000 ≤ (at_ a).addr.val.toNat)) = true := by decide

theorem test_witness_LoadCtrlAndMask : regIndex 0x08 = 0#3 ∧ regIndex 0xF9 = 1#3 ∧ busy.fault = none := by decide
theorem test_witness_LoadStatus : busy.fault = none ∧ busy.status = 0xA0 := by decide
theorem test_witness_WriteOnlyRegistersLoadZero :
    regIndex 0x0B = 3#3 ∧ regIndex 0xFD = 5#3 ∧ regIndex 0x06 = 6#3 ∧ busy.fault = none := by decide
theorem test_witness_LoadOamDataAlwaysFaults : regIndex 0x04 = 4#3 ∧ regIndex 0xFC = 4#3 ∧ busy.fault = none := by decide

theorem test_witness_LoadDataThroughTheReadBuffer :
    [0x0000, 0x1FFF, 0x2000, 0x3EFF].all (fun a => decide ((at_ a).fault = none ∧ (at_ a).addr.val.toNat < 0x3F00)) = true ∧
    [0x3F00, 0x3FFF].all (fun a =>
      decide ((at_ a).fault = none ∧ 0x3F00 ≤ (at_ a).addr.val.toNat ∧ (at_ a).addr.val.toNat < 0x4000)) = true := by decide

/-- The last addresses that meet the hypotheses, with either increment. -/
theorem test_witness_SecondDataLoadReturnsTheFirstByte :
    (let s := at_ 0x3EDF
     s.fault = none ∧ s.addr.val.toNat + (if s.ctrl.getLsbD 2 then 32 else 1) = 0x3EFF ∧ vramLoad s s.addr.val = .ok 0) ∧
    (let s := { at_ 0x3EFE with ctrl := 0 }
     s.fault = none ∧ s.addr.val.toNat + (if s.ctrl.getLsbD 2 then 32 else 1) = 0x3EFF ∧ vramLoad s s.addr.val = .ok 0) := by
  decide

/-- The four ranges at their ends; no address lies in two of them. -/
theorem test_witness_VramLoadDecodesItsAddress :
    vramLoad (next busy 0 0) 0x1FFF = .ok 0 ∧ vramLoad busy 0x2005 = .ok 0x66 ∧ vramLoad busy 0x3EFF = .ok 0 ∧
    vramLoad busy 0x3F00 = .ok 0x0F ∧ vramLoad busy 0x3FE5 = .ok 0x15 ∧ vramLoad busy 0x3FFF = .ok 0 ∧
    vramLoad busy 0x4000 = .error (.vramRange 0x4000 .load) ∧ vramLoad busy 0xFFFF = .error (.vramRange 0xFFFF .load) := by decide

theorem test_witness_NametableStoresMirrorAtBit11 :
    [(0x2000, 0x2800), (0x3EFF, 0x36FF), (0x3600, 0x3E00)].all (fun (a, m) => decide (0x2000 ≤ (a : VramAddr).toNat ∧
      a.toNat < 0x3F00 ∧ a ^^^ 0x800#16 = m ∧ 0x2000 ≤ (m : VramAddr).toNat ∧ m.toNat < 0x3F00) &&
      (vramStore busy a 0x77 matches .ok _)) = true ∧
    (0x2001#16).toNat % 2048 ≠ (0x2000#16).toNat % 2048 ∧ (0x1FFF#16).toNat < 0x2000 ∧ 0x3F00 ≤ (0x3F00#16).toNat := by decide

theorem test_witness_PaletteStoreRedirect :
    [0x3F10, 0x3F30, 0x3FF0].all (fun a => decide (0x3F00 ≤ (a : VramAddr).toNat ∧ a.toNat < 0x4000 ∧ a.toNat % 32 = 0x10) &&
      (vramStore busy a 0xFF matches .ok _)) = true ∧
    [0x3F00, 0x3F0F, 0x3F11, 0x3F14, 0x3FFF].all (fun a =>
      decide (0x3F00 ≤ (a : VramAddr).toNat ∧ a.toNat < 0x4000 ∧ a.toNat % 32 ≠ 0x10) &&
      (vramStore busy a 0xFF matches .ok _)) = true := by decide

theorem test_witness_OamPort : busy.fault = none ∧ busy.oam ≠ [] := by decide
theorem test_witness_FrameRead : busy.fault = none ∧ busy.frame ≠ [] := by decide

theorem test_witness_LatchesResetTogetherAndStayIndependent :
    gives (exec .rStatus busy) (fun t => t.scroll.next == .x && t.addr.next == .hi) = true ∧
    gives (exec (.wScroll 7) busy) (fun t => t.addr.next == .lo) = true ∧
    gives (exec (.wAddr 7) busy) (fun t => t.scroll.next == .y) = true := by decide

theorem test_witness_StoresAfterStatusLoadLandInOrder :
    busy.fault = none ∧ busy.scroll.next = .y ∧ busy.addr.next = .lo := by decide
theorem test_witness_SetAddr : busy.fault = none ∧ busy.addr.next = .lo := by decide

theorem test_witness_SpriteWritesItsRecord : busy.fault = none ∧ (Pseudo.sprite 0 1 2 3 4).wellFormed = true ∧
    (Pseudo.sprite 63 1 2 3 4).wellFormed = true := by decide

theorem test_witness_DmaFillsOam :
    busy.fault = none ∧ (Pseudo.dma ((List.range 256).map (BitVec.ofNat 8))).wellFormed = true := by decide +kernel

/-- Each clause's premise: a transaction that changes the element. -/
theorem test_witness_WritersOfEachElement :
    (let changes (i : Instr) (p : State → Bool) := gives (exec i busy) fun t => !stepFaulted t && p t
     changes (.wCtrl 3) (fun t => t.ctrl != busy.ctrl && t.syNt != busy.syNt) ∧ changes (.wMask 1) (·.mask != busy.mask) ∧
     changes (.step 27588) (fun t => t.scanline != busy.scanline && t.cy != busy.cy) ∧
     changes (.wOamaddr 1) (·.oamAddr != busy.oamAddr) ∧
     changes (.wOamdata 1) (fun t => t.oamAddr != busy.oamAddr && t.oam != busy.oam) ∧
     changes (.oamW 0 1) (·.oam != busy.oam) ∧
     changes (.wScroll 1) (fun t => t.scroll != busy.scroll && t.syFine != busy.syFine) ∧
     changes .rStatus (fun t => t.scroll != busy.scroll && t.addr != busy.addr) ∧
     changes (.wAddr 0) (·.addr != busy.addr) ∧ changes (.wAddr 0xFF) (fun t => t.addr != busy.addr) ∧
     changes .rData (fun t => t.dataBuf != busy.dataBuf && t.addr != busy.addr) ∧
     changes (.wData 0x12) (fun t => t.nametable != busy.nametable && t.addr != busy.addr)) ∧
    gives (exec (.wAddr 0x00) { busy with addr := ⟨0x2000, .lo⟩ }) (fun t => t.sxNt != busy.sxNt) = true ∧
    gives (exec (.wData 0x12) (at_ 0x3F01)) (fun t => t.palette != busy.palette) = true ∧
    gives (exec (.step 29868) busy) (fun t => !stepFaulted t && t.status != busy.status) = true := by decide +kernel

theorem test_witness_HaltedBlockHasNoStep : halted.fault = some (.oamdataRead 0xFF) := rfl
theorem test_witness_RunningBlockPerformsEveryTransaction : busy.fault = none ∧ base.fault = none := by decide

/-- One transaction for each of the faults. -/
theorem test_witness_FaultsAreRaisedOnlyWhereNamed :
    gives (exec (.wData 1) (at_ 0x4000)) (fun t => t.fault == some (.vramRange 0x4000 .store)) = true ∧
    gives (exec .rData (at_ 0xFFFF)) (fun t => t.fault == some (.vramRange 0xFFFF .load)) = true ∧
    gives (exec .rOamdata busy) (fun t => t.fault == some (.oamdataRead 0xFF)) = true ∧
    gives (exec (.step 1254) { scene [] [off, off, off, (10, 1, 0, 5)] with ctrl := 0x20, scanline := 10, cy := 1140 })
      (fun t => t.fault == some (.sprite8x16 10 5 3)) = true := by decide +kernel

/-- The state of V-T5, before it. -/
def beforeVblank : State := { busy with status := 0x60, scanline := 240, cy := 27360 }

theorem test_witness_OnlyStepRequestsAnNmi :
    gives (exec (.step 27474) beforeVblank) (fun t => t.reply == .stepped false true) = true := by decide +kernel

theorem test_witness_OverflowIsNeverCleared : gives (exec (.step 29868) busy) (fun t => !stepFaulted t) = true ∧
    busy.status.getLsbD 5 = true := by decide +kernel

/-- One cycle short of the boundary, and a target below `cy`. -/
theorem test_witness_StepBelowTheBoundaryDoesNothing : busy.fault = none ∧
    (27587#64).toNat < busy.cy.toNat + busy.params.q ∧ (0#64).toNat < busy.cy.toNat + busy.params.q := by decide

/-- The scanlines at which the clauses meet (V−1, N−1, one between), with the least and the greatest target. -/
theorem test_witness_OneBlankScanline :
    [240, 241, 260, 261].all (fun y => [27474, 27587].all fun target =>
      let s := { beforeVblank with scanline := y }
      decide (s.fault = none ∧ 240 ≤ s.scanline ∧ s.scanline < s.params.n ∧
        s.cy.toNat + s.params.q ≤ (target : Cycles).toNat ∧ target.toNat < s.cy.toNat + 2 * s.params.q)) = true := by decide

/-- Parameters with V = 240, the least that R7 admits. -/
def earlyVblank : Params := { params with v := 240, v_low := by decide, v_high := by decide }

/-- The first and the last visible scanline, the three ways to meet `noTallSpriteOn` (the third on the first scanline
past the slots at Y = 0, which have height 16, and on the last), V at its least and its default. -/
theorem test_witness_OneVisibleScanline :
    [(0, 0x00, 0x18, params), (239, 0x20, 0x08, params), (239, 0x00, 0x18, earlyVblank), (16, 0x20, 0x18, params),
      (239, 0x20, 0x18, params)].all (fun (y, c, m, p) =>
      let s := { busy with scanline := y, ctrl := c, mask := m, params := p, cy := 0 }
      decide (s.fault = none ∧ s.scanline < 240 ∧
        (s.ctrl.getLsbD 5 = false ∨ s.mask.getLsbD 4 = false ∨ qualifying s s.scanline = []) ∧ s.cy.toNat + s.params.q ≤ (114 : Cycles).toNat ∧ (114 : Cycles).toNat < s.cy.toNat + 2 * s.params.q)) = true := by decide

/-- Start and end on either side of V and N; and in 8×16 mode over the 16 scanlines that no slot of `busy` is on. -/
theorem test_witness_StepArrivesAtItsTarget :
    [(0, 0x20, 0), (240, 0x60, 1), (241, 0xA0, 20), (261, 0xA0, 1), (100, 0x00, 524)].all (fun (y, st, k) =>
      let s := { busy with scanline := y, status := st, cy := 1140 }
      let target : Cycles := 1140 + 114 * k + 113
      decide (s.fault = none ∧ s.scanline < s.params.n ∧ s.ctrl.getLsbD 5 = false ∧
        s.status.getLsbD 7 = decide (s.params.v ≤ s.scanline) ∧
        k.toNat = (target.toNat - s.cy.toNat) / s.params.q)) = true ∧
    (let s := { busy with scanline := 16, status := 0x20, cy := 0, ctrl := 0x20 }
     s.fault = none ∧ s.scanline < s.params.n ∧ s.mask.getLsbD 4 = true ∧
     (∀ j < 16, (s.scanline + j) % s.params.n < 240 → qualifying s ((s.scanline + j) % s.params.n) = []) ∧
     s.status.getLsbD 7 = decide (s.params.v ≤ s.scanline) ∧
     16 = ((1824 : Cycles).toNat - s.cy.toNat) / s.params.q) := by decide +kernel

/-- With 8×8 sprites, and in 8×16 mode with no slot on a visible scanline. -/
theorem test_witness_OneWholeFrame : (base.fault = none ∧ base.scanline = 0 ∧ base.ctrl.getLsbD 5 = false ∧
    (27474#64).toNat = base.cy.toNat + base.params.v * base.params.q ∧
    (29868#64).toNat = base.cy.toNat + base.params.n * base.params.q) ∧
    (let s := { scene [] [] with ctrl := 0x20 }
     s.fault = none ∧ s.scanline = 0 ∧ s.mask.getLsbD 4 = true ∧ (∀ y < 240, qualifying s y = []) ∧
     (27474#64).toNat = s.cy.toNat + s.params.v * s.params.q ∧
     (29868#64).toNat = s.cy.toNat + s.params.n * s.params.q) := by decide +kernel

theorem test_witness_SplittingAStepLeavesTheSameState :
    gives (exec (.step 27588) beforeVblank) (fun u => u.fault == none && u.reply == .stepped false true &&
      gives (exec (.step 29868) u) fun w => w.fault == none && w.reply == .stepped true false) = true := by decide +kernel

theorem test_witness_StepKeepsRegistersAndStores :
    gives (exec (.step 29868) busy) (fun t => !stepFaulted t && t.status != busy.status) = true := by decide +kernel

/-- The first, an inner and the last column. -/
theorem test_witness_TallSpriteHaltsAtTheFirstCoveredColumn :
    [(0, 0), (5, 5), (255, 255)].all (fun (x, left) =>
      let s := { scene [] [off, off, off, (10, 1, 0, left)] with ctrl := 0x20, scanline := 10, cy := 1140 }
      decide (s.fault = none ∧ s.scanline < 240 ∧ s.ctrl.getLsbD 5 = true ∧ s.mask.getLsbD 4 = true ∧
        s.cy.toNat + s.params.q ≤ (1254 : Cycles).toNat ∧
        (selected s s.scanline).find? (covers s x s.scanline) = some 3 ∧
        ∀ x' < x, ∀ k ∈ selected s s.scanline, covers s x' s.scanline k = false)) = true := by decide +kernel

theorem test_witness_SpriteRecordFields : 0 < 64 ∧ 63 < 64 := by decide

/-- A row that ends without a fault. -/
theorem test_witness_EvaluatorSelectsTheFirstEight : (renderScanline 0 base).fault = none := by decide +kernel

/-- The states differ in a tile, an attribute, an X field and the mask. -/
theorem test_witness_OnlyTheYFieldQualifies :
    (let t := { busy with oam := [(1, 9), (2, 9), (3, 9), (4, 0x20), (0xFF, 1)], mask := 0 }
     (∀ slot < 64, t.oam.read (4 * slot) = busy.oam.read (4 * slot)) ∧ t.ctrl.getLsbD 5 = busy.ctrl.getLsbD 5) := by decide +kernel

/-- A list whose first slot is transparent at the column, so that the second is the hit; and a list with none. -/
theorem test_witness_TransparentSpritesLetTheWalkGoOn :
    (let s := scene [] [off, (0, 4, 0, 0), (0, 2, 3, 0)]
     s.ctrl.getLsbD 5 = false ∧ (∀ slot ∈ [1, 2, 63], slot < 64) ∧ [1, 2, 63].find? (opaqueAt s 4 0) = some 2 ∧
     [1, 63].find? (opaqueAt s 4 0) = none) := by decide +kernel

/-- V-P13: a column that hits, and one that does not; and the other ways to meet `noTallSpriteOn`. -/
theorem test_witness_SpriteZeroHit : { scene [] [(0, 2, 0, 0)] with ctrl := 0x20, mask := 0x08 }.mask.getLsbD 4 = false ∧
    qualifying { scene [(0, 1)] [(0, 2, 0, 0)] with ctrl := 0x20 } 16 = [] ∧
    (let s := scene [(0, 1)] [(0, 2, 0x20, 0)]
     s.ctrl.getLsbD 5 = false ∧ bgColor s 0 0 ≠ 0 ∧ (selected s 0).find? (opaqueAt s 0 0) = some 0 ∧ bgColor s 8 0 = 0) := by
  decide +kernel

theorem test_witness_BackgroundPixel : bgColor base 0 0 = 0 ∧ bgColor (scene [(0, 1)] []) 7 0 ≠ 0 := by decide +kernel

/-- The compositor's cases at column 0 of V-P3, V-P1, V-P12, V-P10 and V-P11, with both layers enabled; and the ways to
have a layer disabled. -/
theorem test_witness_CompositePixel :
    (let layers (nt : Memory 8) (r : Byte × Byte × Byte × Byte) (bg : Option (BitVec 5)) (sp : Option SpriteHit) :=
       let s := scene nt [off, r]
       decide (s.mask.getLsbD 3 = true ∧ s.mask.getLsbD 4 = true ∧ background s 0 0 = .ok bg ∧
         spritePixel s 0 0 bg.isSome [1] = .ok sp)
     layers [] off none none ∧ layers [(0, 1)] off (some 1) none ∧
     layers [] (0, 2, 0, 0) none (some ⟨0x12, false, false⟩) ∧
     layers [(0, 1)] (0, 2, 0, 0) (some 1) (some ⟨0x12, false, false⟩) ∧
     layers [(0, 1)] (0, 2, 0x20, 0) (some 1) (some ⟨0x12, true, false⟩)) ∧
    (let s := { scene [(0, 1)] [off, (0, 2, 0, 0)] with mask := 0x10 }
     s.mask.getLsbD 3 = false ∧ s.mask.getLsbD 4 = true ∧ spritePixel s 0 0 false [1] = .ok (some ⟨0x12, false, false⟩)) ∧
    (let s := { scene [(0, 1)] [off, (0, 2, 0, 0)] with mask := 0x08 }
     s.mask.getLsbD 3 = true ∧ s.mask.getLsbD 4 = false ∧ background s 0 0 = .ok (some 1)) := by decide +kernel

theorem test_witness_OtherCtrlAndMaskBitsChangeNoPixel :
    (∀ b < 6, 3 ≤ b → (0x43#8).getLsbD b = busy.ctrl.getLsbD b) ∧ (∀ b < 5, 3 ≤ b → (0xFF#8).getLsbD b = busy.mask.getLsbD b) := by
  decide

theorem test_witness_DisabledLayersShowTheBackdrop : base.mask.getLsbD 3 = false ∧ base.mask.getLsbD 4 = false := by decide

theorem test_witness_CanonicalStoresThatReadAlikeAreEqual :
    (busy.oam.wf 256 ∧ ((busy.oam.write 7 1).write 7 0).wf 256) ∧
    ∀ a, busy.oam.read a = ((busy.oam.write 7 1).write 7 0).read a := ⟨by decide, fun _ => rfl⟩

/-- A state that no run needs to have reached, with a transaction that changes it. -/
theorem test_witness_EveryStepKeepsTheInvariant : Inv (next busy 0x00412 0) ∧
    gives (step (next busy 0x00412 0)) (fun t => t.oam != busy.oam) = true := by decide

end Sys2Proof.Tests
end

section
/-! SUPPORT. The two latches under the transactions that touch them (R45): what each store leaves of the other latch,
and the statement on the latches' reset and independence. -/

namespace Sys2Proof.Machine

/-! ### What a latch store leaves of the other latch (R116, R117) -/

@[simp] theorem storeScroll_addr (d : Byte) (s : State) : (storeScroll d s).addr = s.addr := by
  rw [storeScroll_frame]

@[simp] theorem storeAddr_scroll (d : Byte) (s : State) : (storeAddr d s).scroll = s.scroll := by
  rw [storeAddr_frame]

/-! ### The transactions -/

/-- After `R.STATUS` both latches hold the bytes they held and await their first write (R45, R121). -/
theorem exec_rStatus_latches {s t : State} (h : exec .rStatus s = .next t) :
    t.scroll = { s.scroll with next := .x } ∧ t.addr = { s.addr with next := .hi } := by
  obtain ⟨-, rfl⟩ := exec_next h
  simp [effect]

/-- `W.SCROLL` leaves the whole address latch. -/
theorem exec_wScroll_addr {d : Byte} {s t : State} (h : exec (.wScroll d) s = .next t) : t.addr = s.addr := by
  obtain ⟨-, rfl⟩ := exec_next h
  simp [effect]

/-- `W.ADDR` leaves the whole scroll latch. -/
theorem exec_wAddr_scroll {d : Byte} {s t : State} (h : exec (.wAddr d) s = .next t) : t.scroll = s.scroll := by
  obtain ⟨-, rfl⟩ := exec_next h
  simp [effect]

/-- Settles O28: the status load's reset is one update of both latches, and each store's frame holds the other latch. -/
theorem latchesResetTogetherAndStayIndependent : Obligations.LatchesResetTogetherAndStayIndependent := by
  refine ⟨fun s t h => ?rStatus, fun d s t h => ?wScroll, fun d s t h => ?wAddr⟩
  case rStatus =>
    obtain ⟨hscroll, haddr⟩ := exec_rStatus_latches h
    simp [hscroll, haddr]
  case wScroll => rw [exec_wScroll_addr h]
  case wAddr => rw [exec_wAddr_scroll h]

end Sys2Proof.Machine
end

section
/-! SUPPORT. The memory primitives (spec/20_memory.md): the cells of the nametable and palette ranges by arithmetic on the
address, and the statements on `VramLoad` and on OAM. -/

namespace Sys2Proof.Machine

variable {s : State} {a : VramAddr}

/-! ### VRAM loads by the address's value (R61, R64, R65) -/

/-- The nametable range loads the cell at the address modulo 2048. -/
theorem vramLoad_nametable_mod (h1 : 0x2000#16 ≤ a) (h2 : a < 0x3F00#16) :
    vramLoad s a = .ok (s.nametable.read (a.toNat % 2048)) := by
  rw [vramLoad_nametable h1 h2, nametableCell_eq]

/-- The palette range loads the cell at the address modulo 32, its six bits widened to a byte. -/
theorem vramLoad_palette_mod (h1 : 0x3F00#16 ≤ a) (h2 : a < 0x4000#16) :
    vramLoad s a = .ok ((s.palette.read (a.toNat % 32)).setWidth 8) := by
  rw [vramLoad_palette h1 h2, paletteCell_eq]

/-- Settles O22: one load lemma for each of the four ranges; widening six bits to eight keeps the cell's value. -/
theorem vramLoadDecodesItsAddress : Obligations.VramLoadDecodesItsAddress := by
  refine fun s a => ⟨fun hi => ?pattern, fun lo hi => ?nametable, fun lo hi => ?palette, fun lo => ?range⟩
  case pattern => exact vramLoad_pattern (BitVec.lt_def.mpr hi)
  case nametable => exact vramLoad_nametable_mod (BitVec.le_def.mpr lo) (BitVec.lt_def.mpr hi)
  case palette =>
    exact ⟨_, vramLoad_palette_mod (BitVec.le_def.mpr lo) (BitVec.lt_def.mpr hi),
      BitVec.toNat_setWidth_of_le (by decide)⟩
  case range => exact vramLoad_range (BitVec.le_def.mpr lo)

/-! ### OAM (R69) -/

/-- Settles O25: the load-after-store law is the shared lemma; the direct index and the frame are the definitions themselves. -/
theorem oamLoadAfterOamStore : Obligations.OamLoadAfterOamStore :=
  fun s i j v => ⟨oamLoad_oamStore s i j v, rfl, rfl⟩

end Sys2Proof.Machine
end

section
/-! SUPPORT. The register bank (spec/40_register_bank.md): what a register-window word decodes to at any address byte, what
a transaction does to a running and to a halted block, and the statements on the status store, the two OAM registers and
the loads that answer a byte or the fault without any other effect. -/

namespace Sys2Proof.Machine

variable {s : State}

/-! ### Register-window words (R91, R110) -/

/-- A store word decodes to the store its index selects, whatever `a[7:3]` holds. -/
theorem decode_storeWord {a : Byte} {idx : BitVec 3} (h : regIndex a = idx) (d : Byte) (u : Cycles) :
    decode (Claims.storeWord a d) u = .ok (storeOf idx d) := by
  subst h
  exact decode_wordOf 0#2 0#1 0#1 a d u

/-- A load word decodes to the load its index selects, whatever `a[7:3]` and `d` hold. -/
theorem decode_loadWord {a : Byte} {idx : BitVec 3} (h : regIndex a = idx) (d : Byte) (u : Cycles) :
    decode (Claims.loadWord a d) u = .ok (loadOf idx) := by
  subst h
  exact decode_wordOf 0#2 1#1 0#1 a d u

/-! ### Transactions of a running and of a halted block (R266) -/

/-- On a block that is not halted a transaction answers its effect. -/
theorem exec_running (h : s.fault = none) (i : Instr) : exec i s = .next (effect i s) := by
  rw [exec_eq_transact, transact_running h]

/-- A halted block has no step. -/
theorem exec_halted {r : FaultRecord} (h : s.fault = some r) (i : Instr) : exec i s = .fault (.halted r) := by
  rw [exec_eq_transact, transact_halted h]

/-! ### Stores -/

/-- Settles O9: the effect of `W.STATUS` is its empty reply alone. -/
theorem storeStatusIsANoOp : Obligations.StoreStatusIsANoOp :=
  fun _ d ha => ⟨decode_storeWord ha d, fun _ hs => exec_running hs (.wStatus d)⟩

/-- Settles O10: the effect of `W.OAMADDR` is one update of the cursor. -/
theorem storeOamAddr : Obligations.StoreOamAddr :=
  fun _ d ha => ⟨decode_storeWord ha d, fun _ hs => exec_running hs (.wOamaddr d)⟩

/-- Settles O11: the cursor's width makes its increment one modulo 256, and the OAM store is one cell's write. -/
theorem storeOamData : Obligations.StoreOamData := by
  refine fun a d ha => ⟨decode_storeWord ha d, fun s hs => ⟨_, exec_running hs (.wOamdata d), rfl, ?cursor, ?cells⟩⟩
  case cursor => exact BitVec.toNat_add s.oamAddr 1#8
  case cells => exact fun i => Memory.read_write s.oam s.oamAddr.toNat i d

/-! ### Loads -/

/-- Settles O16: the effect of each load is the reply with the register's byte. -/
theorem loadCtrlAndMask : Obligations.LoadCtrlAndMask :=
  fun _ d => ⟨fun ha => decode_loadWord ha d, fun ha => decode_loadWord ha d,
    fun _ hs => ⟨exec_running hs .rCtrl, exec_running hs .rMask⟩⟩

/-- Settles O18: the effect of each load is the reply with the byte 0. -/
theorem writeOnlyRegistersLoadZero : Obligations.WriteOnlyRegistersLoadZero :=
  fun _ d => ⟨fun ha => decode_loadWord ha d, fun ha => decode_loadWord ha d, fun ha => decode_loadWord ha d,
    fun _ hs => ⟨exec_running hs .rOamaddr, exec_running hs .rScroll, exec_running hs .rAddr⟩⟩

/-- Settles O19: the effect of `R.OAMDATA` raises the fault and nothing more, and a block with a fault is halted. -/
theorem loadOamDataAlwaysFaults : Obligations.LoadOamDataAlwaysFaults := by
  refine fun a d ha => ⟨decode_loadWord ha d, fun s hs => ⟨_, exec_running hs .rOamdata, rfl, ?halts⟩⟩
  case halts => exact exec_halted (raise_fault (.oamdataRead s.oamAddr) s)

end Sys2Proof.Machine
end

section
/-! SUPPORT. Sprites (spec/42_sprites.md): the four bytes of a slot's record, the evaluator's loop in closed form, what a
rendered scanline leaves in `status.OVF`, and the statements on the record, the evaluator and what qualifies. -/

namespace Sys2Proof.Machine

variable {s t : State}

/-! ### Sprite records (R170) -/

/-- An OAM load at an index in range reads the cell of that index. -/
theorem oamLoad_ofNat {i : Nat} (h : i < 256) : oamLoad s (BitVec.ofNat 8 i) = s.oam.read i := by
  rw [oamLoad, BitVec.toNat_ofNat, Nat.mod_eq_of_lt h]

/-- The record of a slot is its four OAM bytes: no index of one wraps. -/
theorem sprite_eq {slot : Nat} (h : slot < 64) :
    sprite s slot =
      ⟨s.oam.read (4 * slot), s.oam.read (4 * slot + 1), s.oam.read (4 * slot + 2), s.oam.read (4 * slot + 3)⟩ := by
  simp only [sprite]
  rw [oamLoad_ofNat (by omega), oamLoad_ofNat (by omega), oamLoad_ofNat (by omega), oamLoad_ofNat (by omega)]

/-- The two low attribute bits are the byte modulo 4 (R173). -/
theorem Sprite.paletteBank_eq (p : Sprite) : p.paletteBank = p.attr.toNat % 4 + 4 := by
  simp [Sprite.paletteBank, BitVec.extractLsb'_toNat]

/-- Attribute bit 5 by arithmetic on the byte (R174). -/
theorem Sprite.behind_iff (p : Sprite) : p.behind = true ↔ p.attr.toNat / 32 % 2 = 1 := by
  rw [Sprite.behind, BitVec.getLsbD, Nat.testBit_eq_decide_div_mod_eq, decide_eq_true_iff]

/-- Settles O47: the record is its four OAM bytes, and the two fields are arithmetic on its attribute byte. -/
theorem spriteRecordFields : Obligations.SpriteRecordFields := by
  intro s slot h
  rw [Sprite.paletteBank_eq, Sprite.behind_iff, sprite_eq h]
  exact ⟨rfl, rfl, Iff.rfl⟩

/-! ### The evaluator (R180, R182) -/

/-- R182's loop in closed form: it appends the qualifying slots in their order, keeps the first eight, and meets a ninth
exactly when there are nine. -/
theorem evaluateFrom_eq (s : State) (y : Nat) {list : List Nat} (hlist : list.length ≤ 8) (slots : List Nat) :
    evaluateFrom s y list slots =
      ⟨(list ++ slots.filter (onScanline s · y)).take 8,
        decide (9 ≤ (list ++ slots.filter (onScanline s · y)).length)⟩ := by
  induction slots generalizing list with
  | nil =>
    have hninth : ¬ 9 ≤ list.length := by omega
    simp [evaluateFrom, List.take_of_length_le hlist, hninth]
  | cons slot rest ih =>
    rw [evaluateFrom, Config.spritesPerLine, List.filter_cons]
    split_ifs with hon hroom
    · rw [ih (by simp; omega), List.append_assoc, List.singleton_append]
    · have hfull : list.length = 8 := by omega
      have hninth : 9 ≤ (list ++ slot :: rest.filter (onScanline s · y)).length := by simp; omega
      rw [List.take_left' hfull, decide_eq_true hninth]
    · exact ih hlist

/-- `on_scanline` reads the slot's Y field and the sprite size alone (R180, R184). -/
theorem onScanline_eq_onLine {slot : Nat} (h : slot < 64) (y : Nat) : onScanline s slot y = Claims.onLine s y slot := by
  rw [onScanline, sprite_eq h]
  rfl

/-- What `Evaluate(y)` gives: the first eight of the qualifying slots, and whether they are nine or more (R182). -/
theorem evaluate_eq (s : State) (y : Nat) :
    evaluate s y = ⟨Claims.selected s y, decide (9 ≤ (Claims.qualifying s y).length)⟩ := by
  have hfilter : (List.range 64).filter (onScanline s · y) = Claims.qualifying s y :=
    List.filter_congr fun _ hslot => onScanline_eq_onLine (List.mem_range.mp hslot) y
  rw [evaluate, evaluateFrom_eq s y (by simp), Config.slots, hfilter]
  rfl

/-! ### The overflow flag (R183) -/

/-- Setting the one bit `i` that `flag` holds on a condition: both flags of a row are raised so. -/
theorem getLsbD_ite_or {i : Nat} (hi : i < 8) {flag : Byte} (hflag : flag = BitVec.twoPow 8 i) (c : Bool) (st : Byte)
    (b : Nat) : (if c then st ||| flag else st).getLsbD b = (st.getLsbD b || c && decide (i = b)) := by
  cases c with
  | false => simp
  | true => simp [hflag, BitVec.getLsbD_twoPow, hi]

/-- The bits of `status` after the overflow flag's update. -/
theorem getLsbD_raiseOvf (ninth : Bool) (st : Byte) (b : Nat) :
    (raiseOvf ninth st).getLsbD b = (st.getLsbD b || ninth && decide (5 = b)) :=
  getLsbD_ite_or (by decide) (by decide) ninth st b

/-- The bits of `status` after the sprite-zero hit flag's update. -/
theorem getLsbD_raiseS0hit (hit : Bool) (st : Byte) (b : Nat) :
    (raiseS0hit hit st).getLsbD b = (st.getLsbD b || hit && decide (6 = b)) :=
  getLsbD_ite_or (by decide) (by decide) hit st b

/-- Rendering a scanline sets `status.OVF` when nine slots qualify and else leaves it, whether or not a column faults. -/
theorem statusOvf_renderScanline (y : Nat) (s : State) :
    statusOvf (renderScanline y s) = (statusOvf s || decide (9 ≤ (Claims.qualifying s y).length)) := by
  obtain ⟨hstatus, -, -⟩ := renderScanline_fields y s
  rw [statusOvf, hstatus, getLsbD_raiseS0hit, getLsbD_raiseOvf, evaluate_eq]
  simp [statusOvf]

/-- Settles O48: the closed form of the evaluator gives the list and the ninth, and the flag follows the ninth. -/
theorem evaluatorSelectsTheFirstEight : Obligations.EvaluatorSelectsTheFirstEight := by
  refine fun s y => ⟨?list, ?ninth, fun _ => statusOvf_renderScanline y s⟩
  case list => rw [evaluate_eq]
  case ninth => rw [evaluate_eq]

/-! ### What qualifies (R184) -/

/-- States that agree on the slots' Y fields and on the sprite size have the same qualifying slots. -/
theorem qualifying_congr (hy : ∀ slot < 64, t.oam.read (4 * slot) = s.oam.read (4 * slot))
    (hsize : t.ctrl.getLsbD 5 = s.ctrl.getLsbD 5) (y : Nat) : Claims.qualifying t y = Claims.qualifying s y := by
  refine List.filter_congr fun slot hslot => ?_
  have hrecord : Claims.record t slot 0 = Claims.record s slot 0 := hy slot (List.mem_range.mp hslot)
  have hheight : Claims.height t = Claims.height s := by rw [Claims.height, Claims.height, hsize]
  rw [Claims.onLine, Claims.onLine, hrecord, hheight]

/-- Settles O49: the evaluator's answer is a function of the qualifying slots. -/
theorem onlyTheYFieldQualifies : Obligations.OnlyTheYFieldQualifies := by
  intro s t y hy hsize
  rw [evaluate_eq, evaluate_eq, Claims.selected, Claims.selected, qualifying_congr hy hsize]

end Sys2Proof.Machine
end

section
/-! SUPPORT. The pixel pipeline (spec/43_pixel_pipeline.md): the pattern colour, the background and the sprite walk in
closed form, what the columns of a row leave in `status.S0HIT`, and the statement on sprite-zero hit. -/

namespace Sys2Proof.Machine

/-! ### Pattern colours (R200) -/

theorem bit_eq_toNat_getLsbD (v : Byte) (b : Nat) : Claims.bit v b = (v.getLsbD b).toNat := by
  rw [Claims.bit, BitVec.getLsbD, Nat.toNat_testBit]

theorem patternColor_lt (s : State) (base tile row col : Nat) : Claims.patternColor s base tile row col < 4 := by
  unfold Claims.patternColor Claims.bit
  omega

/-- A plane bit above another, as a number. -/
theorem ofBool_append_ofBool (hi lo : Bool) :
    BitVec.ofBool hi ++ BitVec.ofBool lo = BitVec.ofNat 2 (2 * hi.toNat + lo.toNat) := by
  cases hi <;> cases lo <;> decide

/-- `PatternPixel` on a row of a tile never faults: it answers the pattern colour of the two plane bytes. -/
theorem patternPixel_eq_patternColor (s : State) {base tile row : Nat} (hbase : base ≤ 0x1000) (htile : tile < 256)
    (hrow : row < 8) (col : Nat) :
    patternPixel s base tile row col = .ok (BitVec.ofNat 2 (Claims.patternColor s base tile row col)) := by
  rw [patternPixel_eq s (by omega), ofBool_append_ofBool, ← bit_eq_toNat_getLsbD, ← bit_eq_toNat_getLsbD]
  rfl

/-- A colour below 4 is not lost in two bits. -/
theorem ofNat_two_eq_zero {c : Nat} (h : c < 4) : BitVec.ofNat 2 c = 0#2 ↔ c = 0 := by
  rw [← BitVec.toNat_inj, BitVec.toNat_ofNat, Nat.mod_eq_of_lt h]
  rfl

/-! ### The background (R202–R208) -/

/-- The cell of a byte in the nametable a column shows: its base selects the half of `nametable_ram` (R64, R203). -/
theorem bgTile_base_add_mod (s : State) (x y : Nat) {offset : Nat} (h : offset < 0x400) :
    ((bgTile (bgXp s x) (bgYp s y)).base + offset) % 2048 = Claims.bgHalf s x + offset := by
  have hquadrant : 32 ≤ bgXp s x / 8 ↔ 256 ≤ bgXp s x := Nat.le_div_iff_mul_le (by decide)
  have hbgX : Claims.bgX s x = bgXp s x := rfl
  simp only [bgTile, Claims.bgHalf, hquadrant, hbgX]
  split_ifs <;> omega

/-- The tile fetch answers the tile number of the column (R204). -/
theorem fetch_tileAddr (s : State) (x y : Nat) :
    fetch s (bgTile (bgXp s x) (bgYp s y)).tileAddr = .ok (Claims.bgTileNumber s x y) := by
  obtain ⟨hlo, hhi⟩ := tileAddr_bounds (bgXp s x) (bgYp s y)
  obtain ⟨-, -, htx, hty⟩ := bgTile_bounds (bgXp s x) (bgYp s y)
  rw [fetch_nametable s hlo (by omega), BgTile.tileAddr, Nat.add_assoc, bgTile_base_add_mod s x y (by omega),
    ← Nat.add_assoc]
  rfl

/-- The attribute fetch answers the byte whose two bits the column uses (R206). -/
theorem fetch_attrAddr (s : State) (x y : Nat) :
    ∃ v, fetch s (bgTile (bgXp s x) (bgYp s y)).attrAddr = .ok v ∧
      (v.extractLsb' (bgTile (bgXp s x) (bgYp s y)).attrShift 2).toNat = Claims.bgAttr s x y := by
  obtain ⟨hlo, hhi⟩ := attrAddr_bounds (bgXp s x) (bgYp s y)
  obtain ⟨-, -, htx, hty⟩ := bgTile_bounds (bgXp s x) (bgYp s y)
  refine ⟨_, fetch_nametable s hlo (by omega), ?_⟩
  rw [BgTile.attrAddr, Nat.add_assoc, Nat.add_assoc, bgTile_base_add_mod s x y (by omega), BitVec.extractLsb'_toNat,
    Nat.shiftRight_eq_div_pow, ← Nat.add_assoc, ← Nat.add_assoc]
  rfl

/-- `(at << 2) | pc` of two two-bit fields, as a palette index. -/
theorem paletteIndex_eq (attr pc : BitVec 2) : 0#1 ++ (attr ++ pc) = BitVec.ofNat 5 (4 * attr.toNat + pc.toNat) := by
  revert attr pc
  decide

/-- The background of a column never faults: it is transparent where the pattern colour is 0, and else has the palette
index of R207. -/
theorem background_eq (s : State) (x y : Nat) :
    background s x y = .ok (if Claims.bgColor s x y = 0 then none
      else some (BitVec.ofNat 5 (4 * Claims.bgAttr s x y + Claims.bgColor s x y))) := by
  have hpattern : patternPixel s (bgBase s) (Claims.bgTileNumber s x y).toNat (bgYp s y % 8) (bgXp s x % 8) =
      .ok (BitVec.ofNat 2 (Claims.bgColor s x y)) :=
    patternPixel_eq_patternColor s (bgBase_le s) (Claims.bgTileNumber s x y).isLt (Nat.mod_lt _ (by decide)) _
  have hcolor : Claims.bgColor s x y < 4 := patternColor_lt ..
  obtain ⟨v, hattr, hv⟩ := fetch_attrAddr s x y
  simp only [background, fetch_tileAddr, hpattern, hattr, ofNat_two_eq_zero hcolor, Except.bind, bind, pure,
    Except.pure]
  split_ifs
  · rfl
  · rw [paletteIndex_eq, hv, BitVec.toNat_ofNat, Nat.mod_eq_of_lt hcolor]

/-- The gated background of a column never faults; it is opaque exactly where the layer is enabled and the pattern
colour is not 0. -/
theorem gatedBackground_ok (s : State) (x y : Nat) :
    ∃ bg, gatedBackground s x y = .ok bg ∧
      (bg.isSome = true ↔ s.mask.getLsbD 3 = true ∧ Claims.bgColor s x y ≠ 0) := by
  rw [gatedBackground, maskBge]
  split_ifs with hbge
  · refine ⟨_, background_eq s x y, ?_⟩
    split_ifs with hcolor
    · exact iff_of_false Bool.false_ne_true fun h => h.2 hcolor
    · exact iff_of_true rfl ⟨hbge, hcolor⟩
  · exact ⟨none, rfl, iff_of_false Bool.false_ne_true fun h => hbge h.1⟩

/-! ### The sprite walk (R209–R215) -/

/-- The bounding box of a slot by its OAM bytes (R181). -/
theorem inBoundingBox_eq_covers {s : State} {slot : Nat} (h : slot < 64) (x y : Nat) :
    inBoundingBox s slot x y = Claims.covers s x y slot := by
  rw [inBoundingBox, onScanline_eq_onLine h, sprite_eq h]
  rfl

/-- The hit R209's walk makes of an opaque match. -/
def hitOf (s : State) (x y : Nat) (bgOpaque : Bool) (slot : Nat) : SpriteHit :=
  ⟨BitVec.ofNat 5 (4 * (sprite s slot).paletteBank + Claims.spriteColor s x y slot), (sprite s slot).behind,
    slot == 0 && bgOpaque⟩

theorem spriteColor_lt (s : State) (x y slot : Nat) : Claims.spriteColor s x y slot < 4 := patternColor_lt ..

/-- An 8×8 sprite covers eight rows. -/
theorem row_lt_of_covers {s : State} {x y slot : Nat} (hsize : s.ctrl.getLsbD 5 = false)
    (hcovers : Claims.covers s x y slot = true) : y - (Claims.record s slot 0).toNat < 8 := by
  have hline : Claims.onLine s y slot = true := (Bool.and_eq_true_iff.mp hcovers).2
  have hheight : Claims.height s = 8 := by rw [Claims.height, hsize]; rfl
  have hrow := (of_decide_eq_true hline).2
  omega

/-- A vertical flip keeps the row in the tile (R210). -/
theorem spriteOffset_row_lt {p : Sprite} {y : Nat} (x : Nat) (h : y - p.y.toNat < 8) : (spriteOffset p x y).1 < 8 := by
  simp only [spriteOffset]
  split_ifs <;> omega

/-- The sample of a covering 8×8 sprite never faults: its row lies in the tile (R210, R212). -/
theorem patternPixel_sprite {s : State} {x y slot : Nat} (hslot : slot < 64) (hsize : s.ctrl.getLsbD 5 = false)
    (hcovers : Claims.covers s x y slot = true) :
    patternPixel s (sprBase s) (sprite s slot).tile.toNat (spriteOffset (sprite s slot) x y).1
      (spriteOffset (sprite s slot) x y).2 = .ok (BitVec.ofNat 2 (Claims.spriteColor s x y slot)) := by
  have hrow : (spriteOffset (sprite s slot) x y).1 < 8 := by
    refine spriteOffset_row_lt x ?_
    rw [sprite_eq hslot]
    exact row_lt_of_covers hsize hcovers
  rw [patternPixel_eq_patternColor s (sprBase_le s) (sprite s slot).tile.isLt hrow, sprite_eq hslot]
  rfl

/-- R209's walk in 8×8 mode in closed form: it never faults, and answers the hit of the first opaque match. -/
theorem spritePixel_eq {s : State} (hsize : s.ctrl.getLsbD 5 = false) (x y : Nat) (bgOpaque : Bool) {list : List Nat}
    (hlist : ∀ slot ∈ list, slot < 64) :
    spritePixel s x y bgOpaque list = .ok ((list.find? (Claims.opaqueAt s x y)).map (hitOf s x y bgOpaque)) := by
  induction list with
  | nil => rfl
  | cons slot rest ih =>
    obtain ⟨hslot, hrest⟩ := List.forall_mem_cons.mp hlist
    have hcolor := spriteColor_lt s x y slot
    rw [spritePixel, inBoundingBox_eq_covers hslot, List.find?_cons, Claims.opaqueAt]
    split_ifs with hcovers htall
    · exact absurd (hsize.symm.trans htall) Bool.false_ne_true
    · simp only [patternPixel_sprite hslot hsize hcovers, ofNat_two_eq_zero hcolor, Except.bind, bind, hcovers,
        Bool.true_and]
      split_ifs with htransparent
      · rw [ih hrest, decide_eq_false (not_not_intro htransparent)]
      · rw [decide_eq_true htransparent, BitVec.toNat_ofNat, Nat.mod_eq_of_lt hcolor]
        rfl
    · rw [ih hrest, Bool.eq_false_of_not_eq_true hcovers]
      rfl

theorem lt_of_mem_selected {s : State} {y slot : Nat} (h : slot ∈ Claims.selected s y) : slot < 64 :=
  List.mem_range.mp (List.mem_of_mem_filter (List.mem_of_mem_take h))

/-- A hit sets sprite-zero hit exactly when it is slot 0's over an opaque background (R213). -/
theorem any_zeroHit_map_hitOf (s : State) (x y : Nat) (bgOpaque : Bool) (first : Option Nat) :
    (first.map (hitOf s x y bgOpaque)).any (·.zeroHit) = true ↔ bgOpaque = true ∧ first = some 0 := by
  cases first with
  | none => simp
  | some slot => simp [hitOf, and_comm]

/-- The gated sprite layer of a column on a row without tall sprites never faults; it sets sprite-zero hit exactly where
the layer is enabled, the background opaque and slot 0 the first opaque match. -/
theorem gatedSprite_ok {s : State} {y : Nat} (h : Claims.noTallSpriteOn s y) (x : Nat) (bgOpaque : Bool) :
    ∃ sp, gatedSprite s (Claims.selected s y) x y bgOpaque = .ok sp ∧
      (sp.any (·.zeroHit) = true ↔ s.mask.getLsbD 4 = true ∧ bgOpaque = true ∧
        (Claims.selected s y).find? (Claims.opaqueAt s x y) = some 0) := by
  rw [gatedSprite, maskSpe]
  split_ifs with hspe
  · have hwalk : spritePixel s x y bgOpaque (Claims.selected s y) =
        .ok (((Claims.selected s y).find? (Claims.opaqueAt s x y)).map (hitOf s x y bgOpaque)) := by
      rcases h with hsize | hoff | hempty
      · exact spritePixel_eq hsize x y bgOpaque fun _ => lt_of_mem_selected
      · exact absurd (hoff.symm.trans hspe) Bool.false_ne_true
      · rw [Claims.selected, hempty]
        rfl
    exact ⟨_, hwalk, (any_zeroHit_map_hitOf ..).trans (and_iff_right hspe).symm⟩
  · exact ⟨none, rfl, iff_of_false Bool.false_ne_true fun h => hspe h.1⟩

/-! ### The columns of a row (R213, R219) -/

/-- R213's condition at one column: both layers are enabled, the background is opaque and slot 0 is the first opaque
match. -/
def ZeroHitAt (s : State) (x y : Nat) : Prop :=
  s.mask.getLsbD 3 = true ∧ s.mask.getLsbD 4 = true ∧ Claims.bgColor s x y ≠ 0 ∧
    (Claims.selected s y).find? (Claims.opaqueAt s x y) = some 0

/-- A column of a row without tall sprites never faults, and sets sprite-zero hit exactly under R213's condition. -/
theorem pixel_ok {s : State} {y : Nat} (h : Claims.noTallSpriteOn s y) (x : Nat) :
    ∃ p, pixel s (Claims.selected s y) x y = .ok p ∧ (p.zeroHit = true ↔ ZeroHitAt s x y) := by
  obtain ⟨bg, hbg, hopaque⟩ := gatedBackground_ok s x y
  obtain ⟨sp, hsp, hzero⟩ := gatedSprite_ok h x bg.isSome
  refine ⟨⟨composite bg sp, tableRgb s (s.palette.read (composite bg sp).toNat), sp.any (·.zeroHit)⟩, ?_, ?_⟩
  · simp only [pixel, hbg, hsp, paletteRgb_eq, Except.bind, bind, pure, Except.pure]
  · rw [hzero, hopaque, ZeroHitAt, and_assoc, and_left_comm]

/-- Columns that do not fault set sprite-zero hit exactly when one of them does. -/
theorem columnsFrom_zeroHit {s : State} {list xs : List Nat} {y : Nat} {hit : Nat → Prop}
    (h : ∀ x ∈ xs, ∃ p, pixel s list x y = .ok p ∧ (p.zeroHit = true ↔ hit x)) :
    (columnsFrom s list y xs).zeroHit = true ↔ ∃ x ∈ xs, hit x := by
  induction xs with
  | nil => simp [columnsFrom]
  | cons x rest ih =>
    obtain ⟨⟨p, hp, hhit⟩, hrest⟩ := List.forall_mem_cons.mp h
    simp only [columnsFrom, hp, Bool.or_eq_true, hhit, ih hrest, List.exists_mem_cons_iff]

/-! ### The sprite-zero hit flag (R213) -/

/-- Rendering a scanline raises `status.S0HIT` when one of its columns set it and else leaves it, faults included. -/
theorem statusS0hit_renderScanline (y : Nat) (s : State) :
    statusS0hit (renderScanline y s) =
      (statusS0hit s || (columnsFrom s (Claims.selected s y) y (List.range 256)).zeroHit) := by
  obtain ⟨hstatus, -, -⟩ := renderScanline_fields y s
  rw [statusS0hit, hstatus, getLsbD_raiseS0hit, getLsbD_raiseOvf, evaluate_eq]
  simp [statusS0hit]

/-- Settles O51: no column of the row faults, so the flag is raised when one of all 256 meets R213's condition. -/
theorem spriteZeroHit : Obligations.SpriteZeroHit := by
  intro s y h
  rw [statusS0hit_renderScanline, Bool.or_eq_true, columnsFrom_zeroHit fun x _ => pixel_ok h x]
  simp only [List.mem_range, ZeroHitAt]

end Sys2Proof.Machine
end

section
/-! SUPPORT. Decoder and encoder (spec/30_encoding.md): what the decoder answers on a word of each port, the converse, the
rows of the opcode table by port, direction and index, and the statements on encoding, decoding and the step that
performs what was decoded. -/

namespace Sys2Proof.Machine

/-! ### The words of the three ports (R91, R92, R93) -/

/-- The register-window instruction of a direction and an index (R91). -/
def regInstr (rw : BitVec 1) (idx : BitVec 3) (d : Byte) : Instr := if rw = 0#1 then storeOf idx d else loadOf idx

/-- The OAM-port instruction of a direction (R92). -/
def oamInstr (rw : BitVec 1) (a d : Byte) : Instr := if rw = 0#1 then .oamW a d else .oamR a

/-- The control-port instruction of a direction (R93). -/
def controlInstr (rw : BitVec 1) (t : Cycles) : Instr := if rw = 0#1 then .step t else .frame

theorem decode_regWord (rw : BitVec 1) (idx : BitVec 3) (aHigh : BitVec 5) (d : Byte) (t : Cycles) :
    decode (regWord rw idx aHigh d) t = .ok (regInstr rw idx d) := by
  rw [regWord_eq, decode_wordOf, regIndex_append]
  rfl

theorem decode_oamWord (rw : BitVec 1) (a d : Byte) (t : Cycles) :
    decode (oamWord rw a d) t = .ok (oamInstr rw a d) :=
  decode_wordOf 1#2 rw 0#1 a d t

theorem decode_controlWord (rw : BitVec 1) (t : Cycles) : decode (controlWord rw) t = .ok (controlInstr rw t) :=
  decode_wordOf 2#2 rw 0#1 0#8 0#8 t

/-- Settles O3: each instruction's word is one of the three forms, whose instruction is the given one by computation. -/
theorem decodeEncodeRoundTrip : Obligations.DecodeEncodeRoundTrip := by
  intro i aHigh dLow _
  cases i with
  | wCtrl d | wMask d | wStatus d | wOamaddr d | wOamdata d | wScroll d | wAddr d | wData d =>
    exact decode_regWord 0 _ aHigh d 0
  | rCtrl | rMask | rStatus | rOamaddr | rOamdata | rScroll | rAddr | rData => exact decode_regWord 1 _ aHigh dLow 0
  | oamW a d => exact decode_oamWord 0 a d 0
  | oamR a => exact decode_oamWord 1 a dLow 0
  | step target => exact decode_controlWord 0 target
  | frame => exact decode_controlWord 1 0

/-! ### What an accepted word is (R95, R97) -/

/-- An address byte is its ignored bits above its index. -/
theorem extract_append_regIndex (a : Byte) : a.extractLsb' 3 5 ++ regIndex a = a := by
  apply BitVec.eq_of_getLsbD_eq
  intro i hi
  simp only [regIndex, BitVec.getLsbD_append, BitVec.getLsbD_extractLsb']
  interval_cases i <;> simp

/-- A word the decoder accepts is a word of one of the three forms, and its instruction is that form's. -/
theorem decode_ok_cases {w : TWord} {t : Cycles} {i : Instr} (h : decode w t = .ok i) :
    (w = regWord (rwField w) (regIndex (aField w)) ((aField w).extractLsb' 3 5) (dField w) ∧
      i = regInstr (rwField w) (regIndex (aField w)) (dField w)) ∨
    (w = oamWord (rwField w) (aField w) (dField w) ∧ i = oamInstr (rwField w) (aField w) (dField w)) ∨
    (w = controlWord (rwField w) ∧ i = controlInstr (rwField w) t) := by
  have hw := wordOf_fields w
  unfold decode at h
  split at h
  next => exact absurd h (by simp)
  next hz =>
    rw [show zField w = 0#1 from (BitVec.eq_zero_or_eq_one _).resolve_right hz] at hw
    split at h
    next hport =>
      refine .inl ⟨?_, (Except.ok.inj h).symm⟩
      rw [regWord_eq, extract_append_regIndex, ← hport, hw]
    next hport =>
      rw [hport] at hw
      exact .inr (.inl ⟨hw.symm, (Except.ok.inj h).symm⟩)
    next hport =>
      split at h
      next hzero =>
        obtain ⟨ha, hd⟩ := hzero
        refine .inr (.inr ⟨?_, (Except.ok.inj h).symm⟩)
        rw [hport, ha, hd] at hw
        exact hw.symm
      next => exact absurd h (by simp)
    next => exact absurd h (by simp)

theorem encodeWith_regInstr (rw : BitVec 1) (idx : BitVec 3) (aHigh : BitVec 5) (d : Byte) :
    encodeWith aHigh d (regInstr rw idx d) = regWord rw idx aHigh d := by
  unfold regInstr
  split
  next hrw =>
    subst hrw
    unfold storeOf
    split <;> rfl
  next hrw =>
    obtain rfl : rw = 1#1 := (BitVec.eq_zero_or_eq_one rw).resolve_left hrw
    unfold loadOf
    split <;> rfl

theorem encodeWith_oamInstr (rw : BitVec 1) (aHigh : BitVec 5) (a d : Byte) :
    encodeWith aHigh d (oamInstr rw a d) = oamWord rw a d := by
  rcases BitVec.eq_zero_or_eq_one rw with rfl | rfl <;> rfl

theorem encodeWith_controlInstr (rw : BitVec 1) (aHigh : BitVec 5) (d : Byte) (t : Cycles) :
    encodeWith aHigh d (controlInstr rw t) = controlWord rw := by
  rcases BitVec.eq_zero_or_eq_one rw with rfl | rfl <;> rfl

theorem regInstr_ne_step (rw : BitVec 1) (idx : BitVec 3) (d : Byte) (u : Cycles) : regInstr rw idx d ≠ .step u := by
  unfold regInstr storeOf loadOf
  split <;> split <;> simp

/-- Settles O4: the word is one of the three forms, and encoding the form's instruction gives the form back; only the
control port answers a STEP, and it answers it with the target. -/
theorem acceptedWordIsAnEncoding : Obligations.AcceptedWordIsAnEncoding := by
  intro w t i h
  rcases decode_ok_cases h with ⟨hw, rfl⟩ | ⟨hw, rfl⟩ | ⟨hw, rfl⟩
  · exact ⟨(encodeWith_regInstr ..).trans hw.symm, fun u hu => absurd hu (regInstr_ne_step _ _ _ u)⟩
  · refine ⟨(encodeWith_oamInstr ..).trans hw.symm, fun u hu => ?_⟩
    unfold oamInstr at hu
    split at hu <;> exact absurd hu (by simp)
  · refine ⟨(encodeWith_controlInstr ..).trans hw.symm, fun u hu => ?_⟩
    unfold controlInstr at hu
    split at hu
    · exact (Instr.step.inj hu).symm
    · exact absurd hu (by simp)

/-! ### The opcode table (R98) -/

/-- Every instruction has a row of its mnemonic, which matches every word of the instruction. -/
theorem tableRow (i : Instr) : Laws.TableRow.Statement i :=
  match i with
  | .wCtrl d => Laws.TableRow.wCtrl d
  | .wMask d => Laws.TableRow.wMask d
  | .wStatus d => Laws.TableRow.wStatus d
  | .wOamaddr d => Laws.TableRow.wOamaddr d
  | .wOamdata d => Laws.TableRow.wOamdata d
  | .wScroll d => Laws.TableRow.wScroll d
  | .wAddr d => Laws.TableRow.wAddr d
  | .wData d => Laws.TableRow.wData d
  | .rCtrl => Laws.TableRow.rCtrl
  | .rMask => Laws.TableRow.rMask
  | .rStatus => Laws.TableRow.rStatus
  | .rOamaddr => Laws.TableRow.rOamaddr
  | .rOamdata => Laws.TableRow.rOamdata
  | .rScroll => Laws.TableRow.rScroll
  | .rAddr => Laws.TableRow.rAddr
  | .rData => Laws.TableRow.rData
  | .oamW a d => Laws.TableRow.oamW a d
  | .oamR a => Laws.TableRow.oamR a
  | .step t => Laws.TableRow.step t
  | .frame => Laws.TableRow.frame

/-- No two rows share a mnemonic. -/
theorem opcodeTable_mnemonic_inj :
    ∀ row ∈ opcodeTable, ∀ row' ∈ opcodeTable, row.mnemonic = row'.mnemonic → row = row' := by decide

theorem regInstr_mnemonic (rw : BitVec 1) (idx : BitVec 3) (d : Byte) :
    (regInstr rw idx d).mnemonic = (regInstr rw idx 0).mnemonic := by
  unfold regInstr storeOf
  split
  · split <;> rfl
  · rfl

/-- The register-window rows by direction and index. -/
theorem registerRows_eq : ∀ row ∈ registerRows, ∃ (rw : BitVec 1) (idx : BitVec 3),
    row = ⟨(regInstr rw idx 0).mnemonic, regWord rw idx 0 0, 0xF0700⟩ := by decide

/-- The other rows by direction. -/
theorem portRows_eq : ∀ row ∈ portRows, ∃ rw : BitVec 1,
    row = ⟨(oamInstr rw 0 0).mnemonic, oamWord rw 0 0, 0xF0000⟩ ∨
    row = ⟨(controlInstr rw 0).mnemonic, controlWord rw, 0xFFFFF⟩ := by decide

/-- The bits a register-window row cares for are port, direction, `z` and index. -/
theorem wordOf_and_regCare (port : BitVec 2) (rw z : BitVec 1) (a d : Byte) :
    wordOf port rw z a d &&& 0xF0700 = wordOf port rw z (0#5 ++ regIndex a) 0#8 := by
  apply BitVec.eq_of_getLsbD_eq
  intro i hi
  simp only [wordOf, regIndex, BitVec.getLsbD_and, BitVec.getLsbD_append, BitVec.getLsbD_extractLsb']
  interval_cases i <;> simp

/-- The bits an OAM-port row cares for are port, direction and `z`. -/
theorem wordOf_and_oamCare (port : BitVec 2) (rw z : BitVec 1) (a d : Byte) :
    wordOf port rw z a d &&& 0xF0000 = wordOf port rw z 0#8 0#8 := by
  apply BitVec.eq_of_getLsbD_eq
  intro i hi
  simp only [wordOf, BitVec.getLsbD_and, BitVec.getLsbD_append]
  interval_cases i <;> simp

/-- Equal words have equal ports, directions, `z` bits and address bytes. -/
theorem wordOf_inj {port port' : BitVec 2} {rw rw' z z' : BitVec 1} {a a' d d' : Byte}
    (h : wordOf port rw z a d = wordOf port' rw' z' a' d') : port = port' ∧ rw = rw' ∧ z = z' ∧ a = a' := by
  have hport := congrArg portField h
  have hrw := congrArg rwField h
  have hz := congrArg zField h
  have ha := congrArg aField h
  rw [portField_wordOf, portField_wordOf] at hport
  rw [rwField_wordOf, rwField_wordOf] at hrw
  rw [zField_wordOf, zField_wordOf] at hz
  rw [aField_wordOf, aField_wordOf] at ha
  exact ⟨hport, hrw, hz, ha⟩

/-- On a word that a register-window row matches the decoder answers the row's instruction. -/
theorem decode_of_and_regCare {w : TWord} {rw : BitVec 1} {idx : BitVec 3} (h : w &&& 0xF0700 = regWord rw idx 0 0)
    (t : Cycles) : decode w t = .ok (regInstr rw idx (dField w)) := by
  have hw := wordOf_fields w
  rw [← hw, wordOf_and_regCare, regWord_eq] at h
  obtain ⟨hport, hrw, hz, ha⟩ := wordOf_inj h
  have hidx := congrArg regIndex ha
  rw [regIndex_append, regIndex_append] at hidx
  rw [hport, hrw, hz] at hw
  rw [← hidx]
  conv_lhs => rw [← hw]
  exact decode_wordOf 0#2 rw 0#1 (aField w) (dField w) t

/-- On a word that an OAM-port row matches the decoder answers the row's instruction. -/
theorem decode_of_and_oamCare {w : TWord} {rw : BitVec 1} (h : w &&& 0xF0000 = oamWord rw 0 0) (t : Cycles) :
    decode w t = .ok (oamInstr rw (aField w) (dField w)) := by
  have hw := wordOf_fields w
  rw [← hw, wordOf_and_oamCare] at h
  obtain ⟨hport, hrw, hz, -⟩ := wordOf_inj (port' := 1#2) (z' := 0#1) h
  rw [hport, hrw, hz] at hw
  conv_lhs => rw [← hw]
  exact decode_wordOf 1#2 rw 0#1 (aField w) (dField w) t

/-- On a word a row matches the decoder answers an instruction of the row's mnemonic. -/
theorem decode_of_row {row : OpcodeRow} (hrow : row ∈ opcodeTable) {w : TWord} (h : w &&& row.care = row.value)
    (t : Cycles) : ∃ i, decode w t = .ok i ∧ i.mnemonic = row.mnemonic := by
  rcases List.mem_append.mp hrow with hreg | hport
  · obtain ⟨rw, idx, rfl⟩ := registerRows_eq row hreg
    exact ⟨_, decode_of_and_regCare h t, regInstr_mnemonic ..⟩
  · obtain ⟨rw, rfl | rfl⟩ := portRows_eq row hport
    · refine ⟨_, decode_of_and_oamCare h t, ?_⟩
      unfold oamInstr
      split <;> rfl
    · obtain rfl : w = controlWord rw := (BitVec.and_allOnes (x := w)).symm.trans h
      refine ⟨_, decode_controlWord rw t, ?_⟩
      unfold controlInstr
      split <;> rfl

/-- Settles O5: an accepted word is an encoding of its instruction, which the one row of that mnemonic matches; and on a
word a row matches the decoder answers the row's instruction. -/
theorem decoderAgreesWithOpcodeTable : Obligations.DecoderAgreesWithOpcodeTable := by
  intro row hrow w t
  refine ⟨?row, fun h => decode_of_row hrow h t⟩
  rintro ⟨i, hdecode, hmnemonic⟩
  obtain ⟨row', hrow', hmnemonic', hcare⟩ := tableRow i
  obtain rfl := opcodeTable_mnemonic_inj row hrow row' hrow' (hmnemonic.symm.trans hmnemonic'.symm)
  have hw := (acceptedWordIsAnEncoding w t i hdecode).1
  rw [← hw]
  exact hcare _ _

/-- Settles O2: each word's fields are literals, so the decoder computes, the target being carried along. -/
theorem printedWordsDecode : Obligations.PrintedWordsDecode :=
  fun _ => ⟨rfl, rfl, rfl, rfl, rfl, rfl, rfl, rfl, rfl, rfl, rfl, rfl⟩

/-! ### The step (R265, R277) -/

theorem step_nil {s : State} (h : s.inbox = []) : step s = .next s := by rw [step, h]

theorem step_ok {s : State} {t : Transaction} {rest : List Transaction} {i : Instr} (h : s.inbox = t :: rest)
    (hi : decode t.word t.target = .ok i) : step s = exec i (s.take t rest) := by
  simp only [step, h, hi]

theorem step_error {s : State} {t : Transaction} {rest : List Transaction} {e : DecodeError} (h : s.inbox = t :: rest)
    (he : decode t.word t.target = .error e) : step s = .refused (.reservedWord e) := by
  simp only [step, h, he]

/-- Settles O1: one lemma for each way a step goes. -/
theorem stepPerformsTheNextTransaction : Obligations.StepPerformsTheNextTransaction :=
  ⟨fun _ => step_nil, fun _ _ _ h => ⟨fun _ => step_ok h, fun _ => step_error h⟩⟩

/-- A step refuses a reserved word exactly when the decoder does: a transaction itself is never refused. -/
theorem step_reserved_iff {s : State} {t : Transaction} {rest : List Transaction} (h : s.inbox = t :: rest) :
    (∃ e, step s = .refused (.reservedWord e)) ↔ ∃ e, decode t.word t.target = .error e := by
  constructor
  · rintro ⟨e, hstep⟩
    cases hdecode : decode t.word t.target with
    | error e' => exact ⟨e', rfl⟩
    | ok i =>
      rw [step_ok h hdecode] at hstep
      exact absurd hstep (exec_not_refused i _ _)
  · rintro ⟨e, he⟩
    exact ⟨e, step_error h he⟩

/-- The decoder refuses exactly the three reserved groups of R95. -/
theorem decode_error_iff (w : TWord) (t : Cycles) :
    (∃ e, decode w t = .error e) ↔
      zField w = 1#1 ∨ portField w = 3#2 ∨ (portField w = 2#2 ∧ ¬ (aField w = 0#8 ∧ dField w = 0#8)) := by
  unfold decode
  split
  next hz => simp [hz]
  next hz =>
    split
    next hport => simp [hz, hport]
    next hport => simp [hz, hport]
    next hport => split <;> simp_all
    next hport => simp [hz, hport]

theorem toNat_zField (w : TWord) : (zField w).toNat = w.toNat / 0x10000 % 2 := by
  rw [zField, BitVec.extractLsb'_toNat, Nat.shiftRight_eq_div_pow]

theorem toNat_portField (w : TWord) : (portField w).toNat = w.toNat / 0x40000 := by
  have := w.isLt
  rw [portField, BitVec.extractLsb'_toNat, Nat.shiftRight_eq_div_pow]
  omega

/-- The address and data bytes of a word are zero exactly when its low sixteen bits are. -/
theorem low_fields_zero_iff (w : TWord) : (aField w = 0#8 ∧ dField w = 0#8) ↔ w.toNat % 0x10000 = 0 := by
  rw [← BitVec.toNat_inj, ← BitVec.toNat_inj, aField, dField, BitVec.extractLsb'_toNat, BitVec.extractLsb'_toNat,
    Nat.shiftRight_eq_div_pow, Nat.shiftRight_zero, BitVec.toNat_ofNat]
  omega

/-- Settles O6: the three groups by the word's value; past the `z` bit a control-port word is one of the two words of R93
exactly when its low sixteen bits are zero. -/
theorem reservedWordsAreRefused : Obligations.ReservedWordsAreRefused := by
  intro s t rest h
  have hz : t.word.getLsbD 16 = true ↔ t.word.toNat / 0x10000 % 2 = 1 := by
    rw [BitVec.getLsbD, Nat.testBit_eq_decide_div_mod_eq, decide_eq_true_iff]
  have hlt := t.word.isLt
  rw [step_reserved_iff h, decode_error_iff, low_fields_zero_iff, hz]
  simp only [← BitVec.toNat_inj, ne_eq, toNat_zField, toNat_portField, BitVec.toNat_ofNat, Nat.reducePow, Nat.reduceMod]
  omega

end Sys2Proof.Machine
end

section
/-! SUPPORT. Registers, VRAM, OAM and sequences of transactions (spec/40_register_bank.md, spec/20_memory.md,
spec/41_external_ports.md, spec/30_encoding.md section 6): the fields and cells by arithmetic, what a store changes of
both stores, and the statements on the register bank, the data register, the ports, the pseudo-transactions and the
construction state. -/

namespace Sys2Proof.Machine

/-! ### Fields by arithmetic -/

/-- One bit of a word by arithmetic on the word. -/
theorem toNat_extractLsb'_one {w : Nat} (x : BitVec w) (i : Nat) : (x.extractLsb' i 1).toNat = x.toNat / 2 ^ i % 2 := by
  rw [BitVec.extractLsb'_toNat, Nat.shiftRight_eq_div_pow]

/-- A byte above a byte (R44). -/
theorem toNat_append_byte (hi lo : Byte) : (hi ++ lo : VramAddr).toNat = 256 * hi.toNat + lo.toNat := by
  rw [BitVec.toNat_append, ← Nat.shiftLeft_add_eq_or_of_lt lo.isLt, Nat.shiftLeft_eq, Nat.mul_comm]

theorem toNat_high_byte (a : VramAddr) : (a.extractLsb' 8 8).toNat = a.toNat / 256 := by
  have := a.isLt
  rw [BitVec.extractLsb'_toNat, Nat.shiftRight_eq_div_pow]
  omega

theorem toNat_low_byte (a : VramAddr) : (a.extractLsb' 0 8).toNat = a.toNat % 256 := by
  rw [BitVec.extractLsb'_toNat, Nat.shiftRight_zero]

theorem high_byte_append (hi lo : Byte) : (hi ++ lo : VramAddr).extractLsb' 8 8 = hi := by
  have := lo.isLt
  apply BitVec.eq_of_toNat_eq
  rw [toNat_high_byte, toNat_append_byte]
  omega

theorem high_append_low (a : VramAddr) : a.extractLsb' 8 8 ++ a.extractLsb' 0 8 = a := by
  apply BitVec.eq_of_toNat_eq
  rw [toNat_append_byte, toNat_high_byte, toNat_low_byte, Nat.div_add_mod]

/-- The status register as a load sees it (R38). -/
theorem toNat_statusByte (s : State) : (statusByte s).toNat = 32 * (s.status.toNat / 32) := by
  have h : ∀ st : Byte, (st &&& 0xE0#8).toNat = 32 * (st.toNat / 32) := by decide
  exact h s.status

/-- A palette store keeps the low six bits of its byte (R67). -/
theorem toNat_palette_value (v : Byte) : ((v &&& 0x3F#8).setWidth 6 : BitVec 6).toNat = v.toNat % 64 := by
  revert v
  decide

theorem paletteStoreCell_eq (a : VramAddr) :
    paletteStoreCell a = if a.toNat % 32 = 0x10 then 0x00 else a.toNat % 32 := by
  rw [paletteStoreCell, paletteCell_eq]

/-- Below 0x4000 the advance does not wrap (R127). -/
theorem toNat_advance {s : State} (h : s.addr.val.toNat < 0x4000) :
    (s.addr.val + inc s).toNat = s.addr.val.toNat + (if s.ctrl.getLsbD 2 then 32 else 1) := by
  have hinc : (inc s).toNat = if s.ctrl.getLsbD 2 then 32 else 1 := by rw [inc, ctrlInc]; split <;> rfl
  rw [BitVec.toNat_add, hinc, Nat.mod_eq_of_lt]
  split <;> omega

/-! ### Register stores and loads -/

/-- Settles O7: both select parts are bits of the byte stored. -/
theorem storeCtrl_holds : Obligations.StoreCtrl := by
  intro d s hs
  have hx : (ctrlXnt d).toNat = d.toNat % 2 := (toNat_extractLsb'_one d 0).trans (by rw [Nat.pow_zero, Nat.div_one])
  have hy : (ctrlYnt d).toNat = d.toNat / 2 % 2 := toNat_extractLsb'_one d 1
  exact ⟨_, exec_running hs (.wCtrl d), rfl, hx, hy, congrArg (256 * · + s.sxFine.toNat) hx,
    congrArg (240 * · + s.syFine.toNat) hy⟩

/-- Settles O8: the effect is one update. -/
theorem storeMask : Obligations.StoreMask := fun d _ hs => exec_running hs (.wMask d)

/-- Settles O12: the half the latch names. -/
theorem storeScroll_holds : Obligations.StoreScroll := by
  intro d s hs
  rw [exec_running hs, effect]
  exact ⟨fun h => by rw [storeScroll_x d h]; rfl, fun h => by rw [storeScroll_y d h]; rfl⟩

/-- Settles O13: the half the latch names, its byte by arithmetic on the address. -/
theorem storeAddr_holds : Obligations.StoreAddr := by
  intro d s hs
  refine ⟨_, exec_running hs (.wAddr d), fun h => ?hi, fun h => ?lo⟩
  case hi =>
    rw [effect, storeAddr_hi d h]
    exact ⟨rfl, by rw [← toNat_low_byte]; exact toNat_append_byte ..⟩
  case lo =>
    rw [effect, storeAddr_lo d h]
    exact ⟨rfl, by rw [← toNat_high_byte]; exact toNat_append_byte .., toNat_extractLsb'_one _ 10⟩

/-- Settles O15: both data accesses raise their fault on the state as it was. -/
theorem dataAccessFrom4000Halts : Obligations.DataAccessFrom4000Halts := by
  intro d s hs h
  have h : 0x4000#16 ≤ s.addr.val := BitVec.le_def.mpr h
  rw [exec_running hs, exec_running hs, effect, effect, storeData, loadData, vramStore_range h, vramLoad_range h]
  exact ⟨rfl, rfl⟩

/-- Settles O17: the reset touches the two selectors alone. -/
theorem loadStatus : Obligations.LoadStatus :=
  fun s hs => ⟨statusByte s, toNat_statusByte s, exec_running hs .rStatus⟩

/-! ### Data loads (R126) -/

theorem loadData_buffered {s : State} {v : Byte} (h : s.addr.val.toNat < 0x3F00) (hv : vramLoad s s.addr.val = .ok v) :
    loadData s = returning (.byte s.dataBuf) { advanceAddr s with dataBuf := v } := by
  have h : s.addr.val < 0x3F00#16 := BitVec.lt_def.mpr h
  simp only [loadData, hv, if_pos h]

theorem loadData_direct {s : State} {v : Byte} (h : 0x3F00 ≤ s.addr.val.toNat) (hv : vramLoad s s.addr.val = .ok v) :
    loadData s = returning (.byte v) (advanceAddr s) := by
  have h : ¬ s.addr.val < 0x3F00#16 := BitVec.not_lt.mpr (BitVec.le_def.mpr h)
  simp only [loadData, hv, if_neg h]

/-- Settles O20: the load goes through the read buffer or past it. -/
theorem loadDataThroughTheReadBuffer : Obligations.LoadDataThroughTheReadBuffer := by
  intro s hs h
  obtain ⟨v, hv⟩ := vramLoad_ok (s := s) (BitVec.lt_def.mpr h)
  refine ⟨v, s.addr.val + inc s, hv, toNat_advance h, fun hlt => ?_, fun hge => ?_⟩ <;> rw [exec_running hs, effect]
  · rw [loadData_buffered hlt hv]
    rfl
  · rw [loadData_direct hge hv]
    rfl

/-! ### Sequences of transactions (R77) -/

/-- The first transaction of a sequence on a running block. Where the block runs by computation, `by exact hs` for the
hypothesis lets the state be read off the goal first. -/
theorem execAll_cons {s : State} (hs : s.fault = none) {i : Instr} {rest : List Instr} :
    execAll (i :: rest) s = execAll rest (effect i s) := by
  rw [execAll, exec_running hs]

/-- Settles O21: the first load puts its byte into the buffer, the second returns the buffer. -/
theorem secondDataLoadReturnsTheFirstByte : Obligations.SecondDataLoadReturnsTheFirstByte := by
  intro s v hs h hv
  have hstep : (0 : Nat) < if s.ctrl.getLsbD 2 then 32 else 1 := by split <;> decide
  have hnext : (s.addr.val + inc s).toNat < 0x3F00 := by rw [toNat_advance (by omega)]; exact h
  rw [execAll_cons hs, effect, loadData_buffered (by omega) hv]
  set t := returning (.byte s.dataBuf) { advanceAddr s with dataBuf := v }
  obtain ⟨v', hv'⟩ := vramLoad_ok (s := t) (a := t.addr.val) (BitVec.lt_def.mpr (Nat.lt_trans hnext (by decide)))
  rw [execAll_cons (show t.fault = none from hs), effect, loadData_buffered hnext hv']
  exact ⟨_, rfl, rfl⟩

/-- Two address stores from the first-write state put both bytes of the address, and bit 10 into `sx_nt` (R117). -/
theorem execAll_wAddr_pair {s : State} (hs : s.fault = none) (h : s.addr.next = .hi) {hi lo : Byte} :
    execAll [.wAddr hi, .wAddr lo] s = .next { s with
      addr := ⟨hi ++ lo, .hi⟩
      sxNt := (hi ++ lo : VramAddr).extractLsb' 10 1
      reply := .nothing } := by
  rw [execAll_cons hs, effect, storeAddr_hi hi h]
  refine (execAll_cons (by exact hs)).trans ?_
  rw [effect, storeAddr_lo lo rfl]
  simp only [returning_addr, high_byte_append]
  rfl

/-- Two scroll stores from the first-write state put both bytes of the latch and both fine parts (R116). -/
theorem execAll_wScroll_pair {s : State} (hs : s.fault = none) (h : s.scroll.next = .x) {x y : Byte} {rest : List Instr} :
    execAll (.wScroll x :: .wScroll y :: rest) s =
      execAll rest { s with scroll := ⟨x, y, .x⟩, sxFine := x, syFine := y, reply := .nothing } := by
  rw [execAll_cons hs, effect, storeScroll_x x h]
  exact execAll_cons (by exact hs)

/-- Settles O29: the status load puts both latches in their first-write state, from which each pair of stores lands. -/
theorem storesAfterStatusLoadLandInOrder : Obligations.StoresAfterStatusLoadLandInOrder := by
  intro s x y h l hs
  have hrun : execAll [.rStatus, .wScroll x, .wScroll y, .wAddr h, .wAddr l] s = .next { s with
      scroll := ⟨x, y, .x⟩
      addr := ⟨h ++ l, .hi⟩
      sxFine := x
      syFine := y
      sxNt := (h ++ l : VramAddr).extractLsb' 10 1
      reply := .nothing } :=
    (execAll_cons hs).trans <| (execAll_wScroll_pair (by exact hs) rfl).trans <| execAll_wAddr_pair (by exact hs) rfl
  refine ⟨_, hrun, rfl, (toNat_extractLsb'_one _ 10).trans ?_⟩
  have := l.isLt
  rw [toNat_append_byte]
  omega

/-- Settles O30: the two bytes of the address, stored Hi then Lo, are the address. -/
theorem setAddr : Obligations.SetAddr := by
  intro s v hs
  have hrun := (execAll_cons hs).trans
    (execAll_wAddr_pair (s := effect .rStatus s) hs rfl (hi := v.extractLsb' 8 8) (lo := v.extractLsb' 0 8))
  rw [high_append_low] at hrun
  exact ⟨_, hrun, rfl, toNat_extractLsb'_one v 10⟩

/-! ### What a data store changes (R62–R67) -/

/-- The cells of both stores after a store that does not fault, by the address's value. -/
theorem vramStore_cells {s t : State} {a : VramAddr} {v : Byte} (h : vramStore s a v = .ok t) :
    (∀ i, t.nametable.read i =
      if 0x2000 ≤ a.toNat ∧ a.toNat < 0x3F00 ∧ i = a.toNat % 2048 then v else s.nametable.read i) ∧
    ∀ i, (t.palette.read i).toNat =
      if 0x3F00 ≤ a.toNat ∧ i = (if a.toNat % 32 = 0x10 then 0x00 else a.toNat % 32) then v.toNat % 64
      else (s.palette.read i).toNat := by
  rcases vramStore_cases h with ⟨hlt, rfl⟩ | ⟨hge, hlt, rfl⟩ | ⟨hge, -, rfl⟩
  · have hlt : a.toNat < 0x2000 := BitVec.lt_def.mp hlt
    exact ⟨fun i => by rw [if_neg (by omega)], fun i => by rw [if_neg (by omega)]⟩
  · have hge : 0x2000 ≤ a.toNat := BitVec.le_def.mp hge
    have hlt : a.toNat < 0x3F00 := BitVec.lt_def.mp hlt
    refine ⟨fun i => ?_, fun i => by rw [if_neg (by omega)]⟩
    simp only [Memory.read_write, nametableCell_eq, hge, hlt, true_and]
  · have hge : 0x3F00 ≤ a.toNat := BitVec.le_def.mp hge
    refine ⟨fun i => by rw [if_neg (by omega)], fun i => ?_⟩
    simp only [Memory.read_write, paletteStoreCell_eq, hge, true_and]
    rw [apply_ite BitVec.toNat, toNat_palette_value]

/-- Settles O14: the store's cells, then the advance. -/
theorem storeDataWritesItsCellAndAdvances : Obligations.StoreDataWritesItsCellAndAdvances := by
  intro d s hs h
  obtain ⟨u, hu⟩ := vramStore_ok (s := s) (BitVec.lt_def.mpr h) d
  have hend : effect (.wData d) s = returning .nothing (advanceAddr u) := by rw [effect, storeData, hu]
  obtain ⟨hnametable, hpalette⟩ := vramStore_cells hu
  have hframe := vramStore_frame hu
  refine ⟨_, (exec_running hs (.wData d)).trans (congrArg _ hend), ?_, ?_, ?_, hnametable, hpalette⟩
  · rw [hframe]
    rfl
  · rw [hframe]
    rfl
  · rw [hframe]
    exact toNat_advance h

/-- Inverting bit 11 keeps the offset in the nametable RAM. -/
theorem xor_bit11_mod (a : VramAddr) : (a ^^^ 0x800#16).toNat % 2048 = a.toNat % 2048 := by
  rw [BitVec.toNat_xor, show 2048 = 2 ^ 11 from rfl, Nat.xor_mod_two_pow]
  exact Nat.xor_zero _

/-- Outside its range, or at another offset, a load does not see a nametable store. -/
theorem vramLoad_nametable_other {s : State} {nametable : Memory 8} {b : VramAddr}
    (h : b.toNat < 0x2000 ∨ 0x3F00 ≤ b.toNat ∨ nametable.read (b.toNat % 2048) = s.nametable.read (b.toNat % 2048)) :
    vramLoad { s with nametable := nametable } b = vramLoad s b := by
  simp only [vramLoad, nametableCell_eq]
  split_ifs with h1 h2 h3
  · rfl
  · have h1 : ¬ b.toNat < 0x2000 := h1
    have h2 : b.toNat < 0x3F00 := h2
    rcases h with h | h | h
    · exact absurd h h1
    · omega
    · exact congrArg _ h
  · rfl
  · rfl

/-- Settles O23: the two addresses name one cell, and a load elsewhere reads what the store left alone. -/
theorem nametableStoresMirrorAtBit11 : Obligations.NametableStoresMirrorAtBit11 := by
  intro s t a v hge hlt hstore
  obtain ⟨hcells, -⟩ := vramStore_cells hstore
  refine ⟨fun hge' hlt' => ?mirror, fun b hb => ?other⟩
  case mirror =>
    rw [vramLoad_nametable_mod (BitVec.le_def.mpr hge') (BitVec.lt_def.mpr hlt'), xor_bit11_mod, hcells,
      if_pos ⟨hge, hlt, rfl⟩]
  case other =>
    have hframe : t = { s with nametable := t.nametable } := by
      rcases vramStore_cases hstore with ⟨-, rfl⟩ | ⟨-, -, rfl⟩ | ⟨hge', -, -⟩
      · rfl
      · rfl
      · exact absurd (BitVec.le_def.mp hge') (by simpa using hlt)
    rw [hframe]
    refine vramLoad_nametable_other ?_
    rcases hb with hb | hb | hb
    · exact .inr (.inr (by rw [hcells, if_neg fun h => hb h.2.2]))
    · exact .inl hb
    · exact .inr (.inl hb)

/-- Settles O24: the store writes the one cell of R66, which is never cell 0x10. -/
theorem paletteStoreRedirect : Obligations.PaletteStoreRedirect := by
  refine ⟨fun s t a v hge _ hstore => ?_, fun _ => rfl⟩
  obtain ⟨-, hcells⟩ := vramStore_cells hstore
  simp only [hge, true_and] at hcells
  have hframe : t = { s with palette := t.palette } := by
    rcases vramStore_cases hstore with ⟨hlt, -⟩ | ⟨-, hlt, -⟩ | ⟨-, -, rfl⟩
    · exact absurd (BitVec.lt_def.mp hlt) (Nat.not_lt.mpr (le_trans (by decide) hge))
    · exact absurd (BitVec.lt_def.mp hlt) (Nat.not_lt.mpr hge)
    · rfl
  have hcell : t.palette.read 0x10 = s.palette.read 0x10 := by
    apply BitVec.eq_of_toNat_eq
    have hne : (0x10 : Nat) ≠ if a.toNat % 32 = 0x10 then 0x00 else a.toNat % 32 := by split_ifs <;> omega
    rw [hcells, if_neg hne]
  refine ⟨hframe, hcells, hcell, fun b hge' hlt' hb => ?_⟩
  rw [vramLoad_palette_mod (BitVec.le_def.mpr hge') (BitVec.lt_def.mpr hlt'), hb, hcell]

/-! ### The OAM port and the frame read -/

/-- Settles O26: one cell's write, and one cell's read. -/
theorem oamPort : Obligations.OamPort :=
  fun a d s hs => ⟨⟨_, exec_running hs (.oamW a d), rfl, fun i => Memory.read_write s.oam a.toNat i d⟩,
    exec_running hs (.oamR a)⟩

/-- Settles O27: the frame's bytes are its cells in index order. -/
theorem frameRead : Obligations.FrameRead := by
  refine fun s hs => ⟨exec_running hs .frame, ?_, fun j hj => ?_⟩
  · rw [frameBytes, List.length_map, List.length_range]
  · rw [frameBytes, List.getElem?_map, List.getElem?_range hj]
    rfl

/-! ### OAM by sequences (R99) -/

/-- `DMA` from cell `a` on: each byte of the page in its cell, every other cell as before. -/
theorem execAll_dmaFrom {s : State} (hs : s.fault = none) (page : List Byte) {a : Nat} (ha : a + page.length ≤ 256) :
    ∃ t, execAll (Pseudo.dmaFrom a page) s = .next t ∧
      t = { s with oam := t.oam, reply := if page = [] then s.reply else .nothing } ∧
      (∀ j < page.length, page[j]? = some (t.oam.read (a + j))) ∧ ∀ i < a, t.oam.read i = s.oam.read i := by
  induction page generalizing a s with
  | nil => exact ⟨s, rfl, rfl, fun _ h => absurd h (Nat.not_lt_zero _), fun _ _ => rfl⟩
  | cons v rest ih =>
    rw [List.length_cons] at ha ⊢
    have hindex : (BitVec.ofNat 8 a).toNat = a := by rw [BitVec.toNat_ofNat, Nat.mod_eq_of_lt (by omega)]
    obtain ⟨t, ht, hframe, hpage, hlow⟩ :=
      ih (s := effect (.oamW (BitVec.ofNat 8 a) v) s) (a := a + 1) hs (by omega)
    have hwrite (i : Nat) (hi : i < a + 1) : t.oam.read i = if i = a then v else s.oam.read i := by
      rw [hlow i hi, effect, returning_oam, oamStore_oam, hindex, Memory.read_write]
    refine ⟨t, (execAll_cons hs).trans ht, ?_, fun j hj => ?_, fun i hi => ?_⟩
    · rw [hframe, if_neg (List.cons_ne_nil v rest)]
      exact congrArg (fun r => { s with oam := t.oam, reply := r }) (ite_self Reply.nothing)
    · cases j with
      | zero => rw [Nat.add_zero, hwrite a (by omega), if_pos rfl]; rfl
      | succ j =>
        rw [List.getElem?_cons_succ, hpage j (by omega)]
        congr 2
        omega
    · rw [hwrite i (by omega), if_neg (by omega)]

/-- Settles O32: the page fills the cells from 0 on, all 256 of them. -/
theorem dmaFillsOam : Obligations.DmaFillsOam := by
  intro s page hs hpage
  have hlength : page.length = 256 := beq_iff_eq.mp hpage
  obtain ⟨t, ht, hframe, hcells, -⟩ := execAll_dmaFrom hs page (a := 0) (by omega)
  rw [if_neg fun h => by simp [h] at hlength] at hframe
  refine ⟨t, ht, hframe, fun i hi => ?_⟩
  rw [hcells i (by omega), Nat.zero_add]

/-- An OAM data store at the cursor, which then stands one further (R115). -/
theorem execAll_wOamdata {s : State} {n : Nat} (hs : s.fault = none) (hcursor : s.oamAddr = BitVec.ofNat 8 n) (hn : n < 256)
    {d : Byte} {rest : List Instr} :
    execAll (.wOamdata d :: rest) s =
      execAll rest { s with oam := s.oam.write n d, oamAddr := BitVec.ofNat 8 (n + 1), reply := .nothing } := by
  have hindex : s.oamAddr.toNat = n := by rw [hcursor, BitVec.toNat_ofNat, Nat.mod_eq_of_lt hn]
  have hnext : s.oamAddr + 1#8 = BitVec.ofNat 8 (n + 1) := by rw [hcursor, BitVec.ofNat_add]
  rw [execAll_cons hs, effect, oamStore, hindex, hnext]
  rfl

/-- Settles O31: the cursor set to the record's first cell, then four stores in consecutive cells. -/
theorem spriteWritesItsRecord : Obligations.SpriteWritesItsRecord := by
  intro s slot y tile attr x hs hslot
  have hslot : slot < 64 := of_decide_eq_true hslot
  refine ⟨{ s with
    oam := (((s.oam.write (4 * slot) y).write (4 * slot + 1) tile).write (4 * slot + 2) attr).write (4 * slot + 3) x
    oamAddr := BitVec.ofNat 8 (4 * slot + 4)
    reply := .nothing }, ?run, rfl, BitVec.toNat_ofNat .., ?_, ?_, ?_, ?_, fun i hi => ?others⟩
  case run =>
    exact (execAll_cons hs).trans <| (execAll_wOamdata (n := 4 * slot) (by exact hs) rfl (by omega)).trans <|
      (execAll_wOamdata (n := 4 * slot + 1) (by exact hs) rfl (by omega)).trans <|
      (execAll_wOamdata (n := 4 * slot + 2) (by exact hs) rfl (by omega)).trans <|
      execAll_wOamdata (n := 4 * slot + 3) (by exact hs) rfl (by omega)
  case others =>
    rw [Memory.read_write_other _ _ _ _ (by omega), Memory.read_write_other _ _ _ _ (by omega),
      Memory.read_write_other _ _ _ _ (by omega), Memory.read_write_other _ _ _ _ (by omega)]
  all_goals simp [Claims.record, Memory.read_write]

/-! ### Construction and canonical stores -/

/-- Settles O56: every field of the construction state is a literal, and every store is empty. -/
theorem constructionState : Obligations.ConstructionState :=
  fun _ => ⟨rfl, rfl, rfl, rfl, rfl, rfl, rfl, rfl, rfl, rfl, rfl, rfl, rfl, fun _ => ⟨rfl, rfl, rfl, rfl⟩⟩

theorem Memory.wf_cons {w size a : Nat} {v : BitVec w} {m : Memory w} (h : Memory.wf size ((a, v) :: m)) :
    (∀ c ∈ m, a < c.1) ∧ v ≠ unlisted w ∧ Memory.wf size m := by
  obtain ⟨hsorted, hcells⟩ := h
  obtain ⟨hhead, htail⟩ := List.pairwise_cons.mp hsorted
  obtain ⟨⟨-, hv⟩, hrest⟩ := List.forall_mem_cons.mp hcells
  exact ⟨hhead, hv, htail, hrest⟩

/-- A canonical store reads its head at the head's index, and as unlisted below it. -/
theorem Memory.read_head {w size a : Nat} {v : BitVec w} {m : Memory w} (h : Memory.wf size ((a, v) :: m)) :
    ∀ b ≤ a, Memory.read ((a, v) :: m) b = if b = a then v else unlisted w := by
  intro b hb
  obtain ⟨hhead, -, -⟩ := Memory.wf_cons h
  rw [Memory.read_cons]
  by_cases hba : a = b
  · rw [if_pos hba, if_pos hba.symm]
  · rw [if_neg hba, if_neg (Ne.symm hba)]
    refine Memory.read_of_not_listed m b fun c hc => ?_
    have := hhead c hc
    omega

/-- Settles O57: the heads are the lowest cell that does not read as unlisted, and the tails read alike. -/
theorem canonicalStoresThatReadAlikeAreEqual : Obligations.CanonicalStoresThatReadAlikeAreEqual := by
  intro w size m k hm hk hread
  induction m generalizing k with
  | nil =>
    cases k with
    | nil => rfl
    | cons c k =>
      obtain ⟨-, hv, -⟩ := Memory.wf_cons hk
      have hhead := hread c.1
      rw [Memory.read_nil, Memory.read_head hk _ le_rfl, if_pos rfl] at hhead
      exact absurd hhead.symm hv
  | cons c m ih =>
    obtain ⟨a, v⟩ := c
    obtain ⟨hma, hv, hm'⟩ := Memory.wf_cons hm
    cases k with
    | nil =>
      have hhead := hread a
      rw [Memory.read_nil, Memory.read_head hm _ le_rfl, if_pos rfl] at hhead
      exact absurd hhead hv
    | cons e k =>
      obtain ⟨b, u⟩ := e
      obtain ⟨hkb, hu, hk'⟩ := Memory.wf_cons hk
      obtain rfl : a = b := by
        rcases Nat.lt_trichotomy a b with hab | hab | hab
        · have hhead := hread a
          rw [Memory.read_head hm _ le_rfl, Memory.read_head hk _ hab.le, if_pos rfl, if_neg hab.ne] at hhead
          exact absurd hhead hv
        · exact hab
        · have hhead := hread b
          rw [Memory.read_head hk _ le_rfl, Memory.read_head hm _ hab.le, if_pos rfl, if_neg hab.ne] at hhead
          exact absurd hhead.symm hu
      have hhead := hread a
      rw [Memory.read_head hm _ le_rfl, Memory.read_head hk _ le_rfl, if_pos rfl, if_pos rfl] at hhead
      have htail : m = k := ih k hm' hk' fun i => by
        by_cases hi : a = i
        · subst hi
          rw [Memory.read_of_not_listed m a fun c hc => (hma c hc).ne',
            Memory.read_of_not_listed k a fun c hc => (hkb c hc).ne']
        · have := hread i
          rwa [Memory.read_cons, Memory.read_cons, if_neg hi, if_neg hi] at this
      rw [hhead, htail]

end Sys2Proof.Machine
end

section
/-! SUPPORT. Pixels and rows (spec/43_pixel_pipeline.md): a pixel from its two layers, the elements of the state a pixel
reads, the columns at which a row ends in the 8×16 fault, and the statements on the walk, the background, the compositor
and the bits that change no pixel. -/

namespace Sys2Proof.Machine

/-! ### The sprite walk and the background -/

/-- A hit by its three fields: the palette index is at most 31, so its number is not lost in five bits (R213, R214). -/
theorem hitOf_eq_iff {s : State} {slot : Nat} (h : slot < 64) (x y : Nat) (bgOpaque : Bool) (hit : SpriteHit) :
    hitOf s x y bgOpaque slot = hit ↔
      hit.index.toNat = 4 * ((Claims.record s slot 2).toNat % 4 + 4) + Claims.spriteColor s x y slot ∧
      hit.behind = (Claims.record s slot 2).getLsbD 5 ∧ hit.zeroHit = (decide (slot = 0) && bgOpaque) := by
  have hcolor := spriteColor_lt s x y slot
  have hattr : (sprite s slot).attr = Claims.record s slot 2 := by rw [sprite_eq h, Claims.record]
  obtain ⟨index, behind, zeroHit⟩ := hit
  rw [hitOf, SpriteHit.mk.injEq, ← BitVec.toNat_inj, BitVec.toNat_ofNat, Sprite.paletteBank_eq, Sprite.behind, hattr,
    Nat.mod_eq_of_lt (by omega), eq_comm, eq_comm (a := BitVec.getLsbD _ _), eq_comm (b := zeroHit)]
  rfl

/-- Settles O50: the walk's closed form, and a hit by its three fields. -/
theorem transparentSpritesLetTheWalkGoOn : Obligations.TransparentSpritesLetTheWalkGoOn := by
  intro s list x y bg hsize hlist
  refine ⟨_, spritePixel_eq hsize x y bg hlist, fun hit => ?_⟩
  rw [Option.map_eq_some_iff]
  refine exists_congr fun slot => and_congr_right fun hfind => ?_
  exact hitOf_eq_iff (hlist slot (List.mem_of_find?_eq_some hfind)) x y bg hit

/-- Settles O52: the background's closed form; two attribute bits and two pattern bits stay below 16. -/
theorem backgroundPixel : Obligations.BackgroundPixel := by
  intro s x y
  have hcolor : Claims.bgColor s x y < 4 := patternColor_lt ..
  have hattr : Claims.bgAttr s x y < 4 := Nat.mod_lt _ (by decide)
  rw [background_eq]
  refine ⟨fun h => by rw [if_pos h], fun h => ⟨_, by rw [if_neg h], ?_⟩⟩
  rw [BitVec.toNat_ofNat, Nat.mod_eq_of_lt (by omega)]

/-! ### A pixel from its two layers (R216–R219) -/

theorem pixel_of_layers {s : State} {list : List Nat} {x y : Nat} {bg : Option (BitVec 5)} {sp : Option SpriteHit}
    (hbg : gatedBackground s x y = .ok bg) (hsp : gatedSprite s list x y bg.isSome = .ok sp) :
    pixel s list x y =
      .ok ⟨composite bg sp, tableRgb s (s.palette.read (composite bg sp).toNat), sp.any (·.zeroHit)⟩ := by
  simp only [pixel, hbg, hsp, paletteRgb_eq, Except.bind, bind, pure, Except.pure]

theorem gatedBackground_on {s : State} (h : s.mask.getLsbD 3 = true) (x y : Nat) :
    gatedBackground s x y = background s x y := by rw [gatedBackground, maskBge, if_pos h]

theorem gatedBackground_off {s : State} (h : s.mask.getLsbD 3 = false) (x y : Nat) :
    gatedBackground s x y = .ok none := by rw [gatedBackground, maskBge, h]; rfl

theorem gatedSprite_on {s : State} (h : s.mask.getLsbD 4 = true) (list : List Nat) (x y : Nat) (bgOpaque : Bool) :
    gatedSprite s list x y bgOpaque = spritePixel s x y bgOpaque list := by rw [gatedSprite, maskSpe, if_pos h]

theorem gatedSprite_off {s : State} (h : s.mask.getLsbD 4 = false) (list : List Nat) (x y : Nat) (bgOpaque : Bool) :
    gatedSprite s list x y bgOpaque = .ok none := by rw [gatedSprite, maskSpe, h]; rfl

/-- Settles O53: each layer is the one the mask bit gates, and the compositor's cases are its definition's. -/
theorem compositePixel : Obligations.CompositePixel := by
  intro s list x y bg sp hbgOn hbgOff hspOn hspOff
  have hbg : gatedBackground s x y = .ok bg := by
    cases hmask : s.mask.getLsbD 3 with
    | true => rw [gatedBackground_on hmask, hbgOn hmask]
    | false => rw [gatedBackground_off hmask, hbgOff hmask]
  have hsp : gatedSprite s list x y bg.isSome = .ok sp := by
    cases hmask : s.mask.getLsbD 4 with
    | true => rw [gatedSprite_on hmask, hspOn hmask]
    | false => rw [gatedSprite_off hmask, hspOff hmask]
  refine ⟨_, pixel_of_layers hbg hsp, rfl, rfl, ?backdrop, ?background, ?sprite, ?both⟩
  case backdrop => rintro rfl rfl; rfl
  case background => rintro b rfl rfl; rfl
  case sprite => rintro h rfl rfl; rfl
  case both => rintro b h rfl rfl; rfl

/-- Settles O55: neither layer gives anything, whatever the list and ctrl are. -/
theorem disabledLayersShowTheBackdrop : Obligations.DisabledLayersShowTheBackdrop :=
  fun _ list x y hbge hspe => pixel_of_layers (gatedBackground_off hbge x y) (gatedSprite_off hspe list x y false)

/-! ### What a pixel reads -/

/-- The two states agree on all that a pixel depends on: `ctrl[5:3]`, `mask[4:3]`, the accumulators, VRAM, OAM, the
pattern source and the palette table. -/
structure SamePixelInputs (t s : State) : Prop where
  spt : ctrlSpt t = ctrlSpt s
  bgt : ctrlBgt t = ctrlBgt s
  size : ctrlSize t = ctrlSize s
  bge : maskBge t = maskBge s
  spe : maskSpe t = maskSpe s
  scrollX : scrollX t = scrollX s
  scrollY : scrollY t = scrollY s
  nametable : t.nametable = s.nametable
  palette : t.palette = s.palette
  oam : t.oam = s.oam
  chr : t.chr = s.chr
  params : t.params = s.params

namespace SamePixelInputs

variable {s t : State} (h : SamePixelInputs t s)
include h

theorem fetch_eq (a : Nat) : fetch t a = fetch s a := by
  simp only [fetch, vramLoad, chrLoad, h.chr, h.nametable, h.palette]

theorem patternPixel_eq (base tile row col : Nat) :
    patternPixel t base tile row col = patternPixel s base tile row col := by
  simp only [patternPixel, h.fetch_eq]

theorem background_eq (x y : Nat) : background t x y = background s x y := by
  have hbase : bgBase t = bgBase s := by rw [bgBase, bgBase, h.bgt]
  simp only [background, bgXp, bgYp, h.scrollX, h.scrollY, hbase, h.fetch_eq, h.patternPixel_eq]

theorem sprite_eq (slot : Nat) : sprite t slot = sprite s slot := by simp only [sprite, oamLoad, h.oam]

theorem inBoundingBox_eq (slot x y : Nat) : inBoundingBox t slot x y = inBoundingBox s slot x y := by
  rw [inBoundingBox, inBoundingBox, onScanline, onScanline, spriteHeight, spriteHeight, h.size, h.sprite_eq]

theorem spritePixel_eq (x y : Nat) (bgOpaque : Bool) (list : List Nat) :
    spritePixel t x y bgOpaque list = spritePixel s x y bgOpaque list := by
  have hbase : sprBase t = sprBase s := by rw [sprBase, sprBase, h.spt]
  induction list with
  | nil => rfl
  | cons slot rest ih =>
    rw [spritePixel, spritePixel, h.inBoundingBox_eq, h.size, ih]
    simp only [h.sprite_eq, hbase, h.patternPixel_eq]

theorem pixel_eq (list : List Nat) (x y : Nat) : pixel t list x y = pixel s list x y := by
  have hsprite (bgOpaque : Bool) : gatedSprite t list x y bgOpaque = gatedSprite s list x y bgOpaque := by
    rw [gatedSprite, gatedSprite, h.spe, h.spritePixel_eq]
  have hbackground : gatedBackground t x y = gatedBackground s x y := by
    rw [gatedBackground, gatedBackground, h.bge, h.background_eq]
  simp only [pixel, hbackground, hsprite, paletteRgb_eq, tableRgb, h.params, h.palette]

theorem columnsFrom_eq (list : List Nat) (y : Nat) (xs : List Nat) :
    columnsFrom t list y xs = columnsFrom s list y xs := by
  induction xs with
  | nil => rfl
  | cons x rest ih => simp only [columnsFrom, h.pixel_eq, ih]

end SamePixelInputs

/-- Settles O54: the two states agree on all that a pixel reads. -/
theorem otherCtrlAndMaskBitsChangeNoPixel : Obligations.OtherCtrlAndMaskBitsChangeNoPixel := by
  intro s c m list x y hc hm
  have hsame : SamePixelInputs { s with ctrl := c, mask := m } s :=
    { spt := hc 3 (by decide) (by decide)
      bgt := hc 4 (by decide) (by decide)
      size := hc 5 (by decide) (by decide)
      bge := hm 3 (by decide) (by decide)
      spe := hm 4 (by decide) (by decide)
      scrollX := rfl
      scrollY := rfl
      nametable := rfl
      palette := rfl
      oam := rfl
      chr := rfl
      params := rfl }
  exact hsame.pixel_eq list x y

/-! ### The 8×16 fault of a row (R211, R219, R269) -/

/-- The slot at which column `x` of scanline `y` faults: in 8×16 mode with sprites enabled, the first selected slot that
covers the column. -/
def tallSlot (s : State) (x y : Nat) : Option Nat :=
  if s.ctrl.getLsbD 5 = true ∧ s.mask.getLsbD 4 = true then (Claims.selected s y).find? (Claims.covers s x y) else none

theorem tallSlot_eq_some_iff {s : State} {x y slot : Nat} :
    tallSlot s x y = some slot ↔ s.ctrl.getLsbD 5 = true ∧ s.mask.getLsbD 4 = true ∧
      (Claims.selected s y).find? (Claims.covers s x y) = some slot := by
  unfold tallSlot
  split_ifs with h
  · simp [h]
  · exact iff_of_false (by simp) fun hall => h ⟨hall.1, hall.2.1⟩

/-- Where no 8×16 sprite can fault, no column does. -/
theorem tallSlot_eq_none {s : State} {y : Nat} (h : Claims.noTallSpriteOn s y) (x : Nat) : tallSlot s x y = none := by
  rw [Option.eq_none_iff_forall_ne_some]
  intro slot hslot
  obtain ⟨hsize, hspe, hfind⟩ := tallSlot_eq_some_iff.mp hslot
  rcases h with hsmall | hoff | hempty
  · exact absurd (hsize.symm.trans hsmall) (by decide)
  · exact absurd (hspe.symm.trans hoff) (by decide)
  · rw [Claims.selected, hempty] at hfind
    exact absurd hfind (by simp)

/-- In 8×16 mode the walk ends in the fault at the first covering slot. -/
theorem spritePixel_tall {s : State} (hsize : s.ctrl.getLsbD 5 = true) {x y slot : Nat} (bgOpaque : Bool) {list : List Nat}
    (hlist : ∀ k ∈ list, k < 64) (hfind : list.find? (Claims.covers s x y) = some slot) :
    spritePixel s x y bgOpaque list = .error (.sprite8x16 y x slot) := by
  induction list with
  | nil => exact absurd hfind (by simp)
  | cons k rest ih =>
    obtain ⟨hk, hrest⟩ := List.forall_mem_cons.mp hlist
    rw [spritePixel, inBoundingBox_eq_covers hk, ctrlSize, hsize]
    rw [List.find?_cons] at hfind
    split at hfind
    next hcovers => rw [if_pos hcovers, if_pos rfl, Option.some.inj hfind]
    next hcovers => rw [hcovers, if_neg Bool.false_ne_true, ih hrest hfind]

/-- Where no slot covers the column the walk answers nothing. -/
theorem spritePixel_uncovered {s : State} {x y : Nat} (bgOpaque : Bool) {list : List Nat} (hlist : ∀ k ∈ list, k < 64)
    (hfind : list.find? (Claims.covers s x y) = none) : spritePixel s x y bgOpaque list = .ok none := by
  induction list with
  | nil => rfl
  | cons k rest ih =>
    obtain ⟨hk, hrest⟩ := List.forall_mem_cons.mp hlist
    rw [List.find?_cons] at hfind
    split at hfind
    next => exact absurd hfind (by simp)
    next hcovers =>
      rw [spritePixel, inBoundingBox_eq_covers hk, hcovers, if_neg Bool.false_ne_true, ih hrest hfind]

theorem pixel_eq_error {s : State} {x y slot : Nat} (h : tallSlot s x y = some slot) :
    pixel s (Claims.selected s y) x y = .error (.sprite8x16 y x slot) := by
  obtain ⟨hsize, hspe, hfind⟩ := tallSlot_eq_some_iff.mp h
  obtain ⟨bg, hbg, -⟩ := gatedBackground_ok s x y
  have hsp := (gatedSprite_on hspe (Claims.selected s y) x y bg.isSome).trans
    (spritePixel_tall hsize bg.isSome (fun _ => lt_of_mem_selected) hfind)
  simp only [pixel, hbg, hsp, Except.bind, bind]

theorem pixel_eq_ok {s : State} {x y : Nat} (h : tallSlot s x y = none) :
    ∃ p, pixel s (Claims.selected s y) x y = .ok p := by
  obtain ⟨bg, hbg, -⟩ := gatedBackground_ok s x y
  suffices hsp : ∃ sp, gatedSprite s (Claims.selected s y) x y bg.isSome = .ok sp by
    obtain ⟨sp, hsp⟩ := hsp
    exact ⟨_, pixel_of_layers hbg hsp⟩
  cases hspe : s.mask.getLsbD 4 with
  | false => exact ⟨_, gatedSprite_off hspe _ x y _⟩
  | true =>
    rw [gatedSprite_on hspe]
    cases hsize : s.ctrl.getLsbD 5 with
    | false => exact ⟨_, spritePixel_eq hsize x y _ fun _ => lt_of_mem_selected⟩
    | true =>
      rw [tallSlot, if_pos ⟨hsize, hspe⟩] at h
      exact ⟨_, spritePixel_uncovered _ (fun _ => lt_of_mem_selected) h⟩

/-- The fault that ends scanline `y`: that of its first column that faults. -/
def rowFault (s : State) (y : Nat) : Option FaultRecord :=
  (List.range 256).findSome? fun x => (tallSlot s x y).map (.sprite8x16 y x)

theorem columnsFrom_fault (s : State) (y : Nat) (xs : List Nat) :
    (columnsFrom s (Claims.selected s y) y xs).fault = xs.findSome? fun x => (tallSlot s x y).map (.sprite8x16 y x) := by
  induction xs with
  | nil => rfl
  | cons x rest ih =>
    rw [columnsFrom, List.findSome?_cons]
    cases htall : tallSlot s x y with
    | some slot => rw [pixel_eq_error htall]; rfl
    | none =>
      obtain ⟨p, hp⟩ := pixel_eq_ok htall
      rw [hp]
      exact ih

/-- The first number below `n` at which `f` answers. -/
theorem findSome?_range_eq_some_iff {α : Type} {f : Nat → Option α} {n : Nat} {a : α} :
    (List.range n).findSome? f = some a ↔ ∃ x < n, f x = some a ∧ ∀ x' < x, f x' = none := by
  induction n with
  | zero => simp
  | succ n ih =>
    rw [List.range_succ, List.findSome?_append, Option.or_eq_some_iff, ih, List.findSome?_eq_none_iff]
    simp only [List.mem_range, List.findSome?_cons, List.findSome?_nil]
    constructor
    · rintro (⟨x, hx, hfx, hlow⟩ | ⟨hlow, hfn⟩)
      · exact ⟨x, by omega, hfx, hlow⟩
      · refine ⟨n, by omega, ?_, hlow⟩
        cases h : f n <;> simp_all
    · rintro ⟨x, hx, hfx, hlow⟩
      rcases Nat.lt_succ_iff_lt_or_eq.mp hx with hlt | rfl
      · exact .inl ⟨x, hlt, hfx, hlow⟩
      · exact .inr ⟨hlow, by rw [hfx]⟩

/-- A row's fault names its lowest column that faults, and the slot that makes it. -/
theorem rowFault_eq_some_iff {s : State} {y : Nat} {r : FaultRecord} :
    rowFault s y = some r ↔ ∃ x < 256, ∃ slot, r = .sprite8x16 y x slot ∧ tallSlot s x y = some slot ∧
      ∀ x' < x, tallSlot s x' y = none := by
  simp only [rowFault, findSome?_range_eq_some_iff, Option.map_eq_some_iff, Option.map_eq_none_iff]
  constructor
  · rintro ⟨x, hx, ⟨slot, hslot, rfl⟩, hlow⟩
    exact ⟨x, hx, slot, rfl, hslot, hlow⟩
  · rintro ⟨x, hx, slot, rfl, hslot, hlow⟩
    exact ⟨x, hx, ⟨slot, hslot, rfl⟩, hlow⟩

theorem rowFault_eq_none {s : State} {y : Nat} (h : Claims.noTallSpriteOn s y) : rowFault s y = none := by
  simp [rowFault, tallSlot_eq_none h]

end Sys2Proof.Machine
end

section
/-! SUPPORT. The timing machine (spec/44_timing.md): one iteration of a STEP as a function of states, what rendering
leaves of the registers and when it faults, all that a whole STEP can do, and the statements on STEP. -/

namespace Sys2Proof.Machine

/-! ### Rendering the current scanline (R242) -/

theorem renderScanline_fault (y : Nat) (s : State) : (renderScanline y s).fault = (rowFault s y).or s.fault := by
  obtain ⟨-, -, hfault⟩ := renderScanline_fields y s
  rw [hfault, evaluate_eq, columnsFrom_fault]
  exact Option.orElse_eq_or

/-- A scanline that faults answers the fault (R266). -/
theorem renderScanline_reply {y : Nat} {s : State} {r : FaultRecord} (h : rowFault s y = some r) :
    (renderScanline y s).reply = .fault r := by
  have hrow : (columnsFrom s (evaluate s y).slots y (List.range Config.columns)).fault = some r := by
    rw [evaluate_eq]
    exact (columnsFrom_fault ..).trans h
  simp only [renderScanline, hrow, raise_reply]

theorem renderCurrent_visible {s : State} (h : s.scanline < 240) : renderCurrent s = renderScanline s.scanline s := if_pos h

/-- On a block that was not halted, rendering faults only on a visible scanline, as its row does, and answers the fault. -/
theorem renderCurrent_faulted {s : State} {r : FaultRecord} (hs : s.fault = none) (h : (renderCurrent s).fault = some r) :
    s.scanline < 240 ∧ rowFault s s.scanline = some r ∧ (renderCurrent s).reply = .fault r := by
  unfold renderCurrent at h ⊢
  split at h
  next hvisible =>
    rw [renderScanline_fault, hs, Option.or_none] at h
    refine ⟨hvisible, h, ?_⟩
    rw [if_pos hvisible, renderScanline_reply h]
  next => exact absurd (hs.symm.trans h) (by simp)

/-- The current scanline is visible and has no tall sprite, or it is not visible: rendering keeps the block running. -/
theorem renderCurrent_running {s : State} (hs : s.fault = none)
    (h : s.scanline < 240 → Claims.noTallSpriteOn s s.scanline) : (renderCurrent s).fault = none := by
  by_contra hne
  obtain ⟨r, hr⟩ := Option.ne_none_iff_exists'.mp hne
  obtain ⟨hvisible, hrow, -⟩ := renderCurrent_faulted hs hr
  rw [rowFault_eq_none (h hvisible)] at hrow
  exact absurd hrow (by simp)

/-- The status bits after rendering: on a visible scanline the row raises OVF and S0HIT (R183, R213). -/
theorem getLsbD_status_renderCurrent (s : State) (b : Nat) :
    (renderCurrent s).status.getLsbD b = (s.status.getLsbD b || decide (s.scanline < 240) &&
      (decide (9 ≤ (Claims.qualifying s s.scanline).length) && decide (5 = b) ||
       (columnsFrom s (Claims.selected s s.scanline) s.scanline (List.range 256)).zeroHit && decide (6 = b))) := by
  unfold renderCurrent Config.rows
  split
  next hvisible =>
    obtain ⟨hstatus, -, -⟩ := renderScanline_fields s.scanline s
    rw [hstatus, getLsbD_raiseS0hit, getLsbD_raiseOvf, evaluate_eq, decide_eq_true hvisible, Bool.true_and, Bool.or_assoc]
  next hblank => simp [hblank]

/-! ### The advance (R243–R246) -/

/-- The scanline after `y` (R243, R245). -/
def nextScanline (p : Params) (y : Nat) : Nat := if y + 1 = p.n then 0 else y + 1

/-- From a scanline below N, `k` advances go round the N scanlines. -/
theorem nextScanline_iterate (p : Params) {y : Nat} (h : y < p.n) (k : Nat) : (nextScanline p)^[k] y = (y + k) % p.n := by
  induction k with
  | zero => exact (Nat.mod_eq_of_lt h).symm
  | succ k ih =>
    rw [Function.iterate_succ_apply', ih, nextScanline]
    rcases p.n_ok with hn | hn <;> rw [hn] at h ⊢ <;> split_ifs <;> omega

theorem getLsbD_enterVblank (st : Byte) {b : Nat} (hb : b < 8) :
    (enterVblank st).getLsbD b = if b = 7 then true else if b = 6 then false else st.getLsbD b := by
  rw [enterVblank, BitVec.getLsbD_and, BitVec.getLsbD_or]
  interval_cases b <;> simp

theorem getLsbD_leaveVblank (st : Byte) {b : Nat} (hb : b < 8) :
    (leaveVblank st).getLsbD b = if b = 7 then false else st.getLsbD b := by
  rw [leaveVblank, BitVec.getLsbD_and]
  interval_cases b <;> simp

/-- The status bits after an iteration: VBL set at V and cleared at N, S0HIT cleared at V, every other bit as it was. -/
theorem getLsbD_status_advanceScanline (s : State) {b : Nat} (hb : b < 8) :
    (advanceScanline s).status.getLsbD b =
      if b = 7 then
        if s.scanline + 1 = s.params.v then true else if s.scanline + 1 = s.params.n then false else s.status.getLsbD b
      else if b = 6 ∧ s.scanline + 1 = s.params.v then false else s.status.getLsbD b := by
  rw [advanceScanline_status]
  by_cases hv : s.scanline + 1 = s.params.v
  · simp only [hv, and_true, if_true, getLsbD_enterVblank _ hb]
  · simp only [hv, and_false, if_false]
    by_cases hn : s.scanline + 1 = s.params.n
    · simp only [if_pos hn, getLsbD_leaveVblank _ hb]
    · simp only [if_neg hn, ite_self]

/-! ### What a STEP never writes (R76, R77) -/

/-- The state with every element that a STEP may change blanked: two states that agree here agree on all the others. -/
def kept (s : State) : State :=
  { s with status := 0, frame := [], scanline := 0, cy := 0, fault := none, reply := .nothing }

theorem kept_renderCurrent (s : State) : kept (renderCurrent s) = kept s := by rw [renderCurrent_frame]; rfl

theorem kept_advanceScanline (s : State) : kept (advanceScanline s) = kept s := by rw [advanceScanline_frame]; rfl

/-- A state is what a STEP keeps of it and its six other elements. -/
theorem eq_of_kept {s t : State} (h : kept t = kept s) :
    t = { s with
      status := t.status
      frame := t.frame
      scanline := t.scanline
      cy := t.cy
      fault := t.fault
      reply := t.reply } :=
  congrArg (fun k : State => { k with
    status := t.status, frame := t.frame, scanline := t.scanline, cy := t.cy, fault := t.fault, reply := t.reply }) h

section
variable {s t : State} (h : kept t = kept s)
include h

theorem params_of_kept : t.params = s.params := (congrArg State.params h :)

theorem ctrl_of_kept : t.ctrl = s.ctrl := (congrArg State.ctrl h :)

theorem rowFault_of_kept (y : Nat) : rowFault t y = rowFault s y := (congrArg (rowFault · y) h :)

theorem noTallSpriteOn_of_kept {y : Nat} (hs : Claims.noTallSpriteOn s y) : Claims.noTallSpriteOn t y :=
  (congrArg (Claims.noTallSpriteOn · y) h).mpr hs

end

/-! ### One iteration of a STEP -/

/-- One iteration that does not fault: render, then advance. -/
def passScanline (s : State) : State := advanceScanline (renderCurrent s)

theorem kept_passScanline (s : State) : kept (passScanline s) = kept s :=
  (kept_advanceScanline _).trans (kept_renderCurrent s)

theorem kept_iterate (s : State) (k : Nat) : kept (passScanline^[k] s) = kept s := by
  induction k with
  | zero => rfl
  | succ k ih => rw [Function.iterate_succ_apply', kept_passScanline, ih]

theorem passScanline_fault (s : State) : (passScanline s).fault = (renderCurrent s).fault := advanceScanline_fault _

theorem passScanline_scanline (s : State) : (passScanline s).scanline = nextScanline s.params s.scanline := by
  rw [passScanline, advanceScanline_scanline, renderCurrent_scanline, renderCurrent_params]
  rfl

theorem passScanline_cy {target : Cycles} {s : State} (h : due target s) :
    (passScanline s).cy.toNat = s.cy.toNat + s.params.q := by
  have hdue : due target (renderCurrent s) := by rwa [due, renderCurrent_cy, renderCurrent_params]
  rw [passScanline, advanceScanline_cy_toNat hdue, renderCurrent_cy, renderCurrent_params]

/-- The status bits after an iteration; rendering only raises bits 5 and 6. -/
theorem getLsbD_status_passScanline (s : State) {b : Nat} (hb : b < 8) :
    (passScanline s).status.getLsbD b =
      if b = 7 then
        if s.scanline + 1 = s.params.v then true else if s.scanline + 1 = s.params.n then false else s.status.getLsbD b
      else if b = 6 ∧ s.scanline + 1 = s.params.v then false else (renderCurrent s).status.getLsbD b := by
  have hvbl : (renderCurrent s).status.getLsbD 7 = s.status.getLsbD 7 := by rw [getLsbD_status_renderCurrent]; simp
  rw [passScanline, getLsbD_status_advanceScanline _ hb, renderCurrent_scanline, renderCurrent_params]
  by_cases h7 : b = 7
  · subst h7
    rw [hvbl]
  · simp only [if_neg h7]

theorem iterate_scanline (s : State) (k : Nat) :
    (passScanline^[k] s).scanline = (nextScanline s.params)^[k] s.scanline := by
  induction k with
  | zero => rfl
  | succ k ih =>
    rw [Function.iterate_succ_apply', Function.iterate_succ_apply', passScanline_scanline, ih,
      params_of_kept (kept_iterate s k)]

/-! ### Where a STEP passes V and N (R244, R245) -/

/-- One of the `k` scanlines that follow `y` is reached as scanline `b`, before N is taken to 0. -/
def reaches (p : Params) (y k b : Nat) : Bool := decide (∃ j < k, (nextScanline p)^[j] y + 1 = b)

@[simp] theorem reaches_zero (p : Params) (y b : Nat) : reaches p y 0 b = false := by simp [reaches]

theorem reaches_add (p : Params) (y j k b : Nat) :
    reaches p y (j + k) b = (reaches p y j b || reaches p ((nextScanline p)^[j] y) k b) := by
  rw [Bool.eq_iff_iff, Bool.or_eq_true]
  simp only [reaches, decide_eq_true_iff, ← Function.iterate_add_apply]
  constructor
  · rintro ⟨i, hi, h⟩
    by_cases hij : i < j
    · exact .inl ⟨i, hij, h⟩
    · exact .inr ⟨i - j, by omega, by rwa [show i - j + j = i by omega]⟩
  · rintro (⟨i, hi, h⟩ | ⟨i, hi, h⟩)
    · exact ⟨i, by omega, h⟩
    · exact ⟨i + j, by omega, h⟩

@[simp] theorem reaches_one (p : Params) (y b : Nat) : reaches p y 1 b = decide (y + 1 = b) := by simp [reaches]

/-- From a scanline below N the end of the frame is reached after N − y scanlines. -/
theorem reaches_n (p : Params) {y : Nat} (h : y < p.n) (k : Nat) : reaches p y k p.n = decide (p.n ≤ y + k) := by
  simp only [reaches, nextScanline_iterate p h, decide_eq_decide]
  rcases p.n_ok with hn | hn <;> rw [hn] at h ⊢
  all_goals
    constructor
    · rintro ⟨j, hj, hjn⟩
      omega
    · intro hk
      exact ⟨_, show p.n - 1 - y < k by omega, by omega⟩

/-- From a scanline below N vblank is reached in this frame where V lies ahead, else in the next. -/
theorem reaches_v (p : Params) {y : Nat} (h : y < p.n) (k : Nat) :
    reaches p y k p.v = decide ((if y < p.v then 0 else p.n) + p.v ≤ y + k) := by
  have hv := p.v_low
  have hvn := p.v_high
  simp only [reaches, nextScanline_iterate p h, decide_eq_decide]
  rcases p.n_ok with hn | hn <;> rw [hn] at h hvn ⊢
  all_goals
    constructor
    · rintro ⟨j, hj, hjv⟩
      split_ifs <;> omega
    · intro hk
      refine ⟨(if y < p.v then 0 else p.n) + p.v - 1 - y, ?_, ?_⟩ <;> split_ifs at hk ⊢ <;> omega

/-! ### A whole STEP (R240, R241) -/

theorem lt_iterations_iff {target : Cycles} {s : State} {j : Nat} :
    j < iterations target s ↔ s.cy.toNat + (j + 1) * s.params.q ≤ target.toNat := by
  have hq := s.params.q_pos
  have hmul : 0 < (j + 1) * s.params.q := Nat.mul_pos (by omega) hq
  rw [iterations, ← Nat.succ_le_iff, Nat.le_div_iff_mul_le hq]
  show (j + 1) * s.params.q ≤ _ ↔ _
  omega

theorem iterations_eq {target : Cycles} {s : State} {k : Nat} (h1 : s.cy.toNat + k * s.params.q ≤ target.toNat ∨ k = 0)
    (h2 : target.toNat < s.cy.toNat + (k + 1) * s.params.q) : iterations target s = k := by
  have hnot : ¬ k < iterations target s := by rw [lt_iterations_iff]; omega
  cases k with
  | zero => omega
  | succ k =>
    have hlt : k < iterations target s := lt_iterations_iff.mpr (by omega)
    omega

/-- Each due iteration adds Q to `cy`. -/
theorem iterate_cy {target : Cycles} {s : State} {k : Nat} (h : k ≤ iterations target s) :
    (passScanline^[k] s).cy.toNat = s.cy.toNat + k * s.params.q := by
  induction k with
  | zero => simp
  | succ k ih =>
    have hparams := params_of_kept (kept_iterate s k)
    have hlt := lt_iterations_iff.mp h
    have hcy := ih (by omega)
    have hmul := Nat.add_one_mul k s.params.q
    have hdue : due target (passScanline^[k] s) := by rw [due, hcy, hparams]; omega
    rw [Function.iterate_succ_apply', passScanline_cy hdue, hcy, hparams]
    omega

/-- None of the `k` scanlines from the current one on faults. -/
def NoFault (s : State) (k : Nat) : Prop := ∀ j < k, (renderCurrent (passScanline^[j] s)).fault = none

theorem noFault_zero (s : State) : NoFault s 0 := fun _ h => absurd h (Nat.not_lt_zero _)

theorem noFault_succ {s : State} {k : Nat} :
    NoFault s (k + 1) ↔ (renderCurrent s).fault = none ∧ NoFault (passScanline s) k :=
  Nat.forall_lt_succ_left

theorem iterate_fault {s : State} {k : Nat} (hs : s.fault = none) (h : NoFault s k) :
    (passScanline^[k] s).fault = none := by
  cases k with
  | zero => exact hs
  | succ k =>
    rw [Function.iterate_succ_apply', passScanline_fault]
    exact h k (Nat.lt_succ_self k)

/-- The step result after `k` iterations that do not fault. -/
def stepReply (s : State) (m : Marks) (k : Nat) : Reply :=
  .stepped (m.fc || reaches s.params s.scanline k s.params.n)
    (m.nmi || reaches s.params s.scanline k s.params.v && ctrlNmie s)

/-- The marks an iteration leaves count its scanline. -/
theorem stepReply_succ (s : State) (m : Marks) (k : Nat) :
    stepReply (passScanline s) (markScanline (renderCurrent s) m) k = stepReply s m (k + 1) := by
  have hvn := s.params.v_high
  have hkept := kept_passScanline s
  have hctrl : ctrlNmie (passScanline s) = ctrlNmie s := by rw [ctrlNmie, ctrl_of_kept hkept, ctrlNmie]
  have hctrl' : ctrlNmie (renderCurrent s) = ctrlNmie s := by rw [ctrlNmie, renderCurrent_ctrl, ctrlNmie]
  have hn : (s.scanline + 1 ≠ s.params.v ∧ s.scanline + 1 = s.params.n) ↔ s.scanline + 1 = s.params.n := by omega
  rw [Nat.add_comm k 1]
  simp only [stepReply, markScanline, reaches_add, reaches_one, Function.iterate_one, params_of_kept hkept,
    passScanline_scanline, renderCurrent_scanline, renderCurrent_params, hctrl, hctrl', hn, Bool.or_assoc,
    Bool.and_or_distrib_right]

/-- All a STEP's loop can do: every due iteration passes its scanline, or the first that faults ends the STEP. -/
theorem stepLoop_cases {target : Cycles} {s : State} {k : Nat} (hk : k = iterations target s) (m : Marks) :
    (NoFault s k ∧ stepLoop target k m s = returning (stepReply s m k) (passScanline^[k] s)) ∨
    ∃ j < k, ∃ r, NoFault s j ∧ (renderCurrent (passScanline^[j] s)).fault = some r ∧
      stepLoop target k m s = renderCurrent (passScanline^[j] s) := by
  induction k generalizing s m with
  | zero => exact .inl ⟨noFault_zero s, by simp [stepReply]⟩
  | succ k ih =>
    have hdue : due target s := iterations_pos.mp (by omega)
    cases hfault : (renderCurrent s).fault with
    | some r => exact .inr ⟨0, by omega, r, noFault_zero s, hfault, stepLoop_fault k hdue hfault⟩
    | none =>
      have hk' : k = iterations target (passScanline s) := by
        have := iterations_advance hdue (passScanline_cy hdue) (params_of_kept (kept_passScanline s))
        omega
      rw [stepLoop_next k hdue hfault]
      rcases ih hk' (markScanline (renderCurrent s) m) with ⟨hrun, hloop⟩ | ⟨j, hj, r, hrun, hr, hloop⟩
      · exact .inl ⟨noFault_succ.mpr ⟨hfault, hrun⟩, hloop.trans (by rw [stepReply_succ]; rfl)⟩
      · exact .inr ⟨j + 1, by omega, r, noFault_succ.mpr ⟨hfault, hrun⟩, hr, hloop⟩

/-- All a STEP that has a next state can do. -/
theorem exec_step_cases {target : Cycles} {s t : State} (h : exec (.step target) s = .next t) :
    s.fault = none ∧
    ((NoFault s (iterations target s) ∧
        t = returning (stepReply s ⟨false, false⟩ (iterations target s)) (passScanline^[iterations target s] s)) ∨
      ∃ j < iterations target s, ∃ r, NoFault s j ∧ (renderCurrent (passScanline^[j] s)).fault = some r ∧
        t = renderCurrent (passScanline^[j] s)) := by
  obtain ⟨hs, rfl⟩ := exec_next h
  exact ⟨hs, stepLoop_cases rfl _⟩

/-- A STEP none of whose scanlines faults. -/
theorem exec_step_noFault {target : Cycles} {s : State} {k : Nat} (hs : s.fault = none) (hk : iterations target s = k)
    (hrun : NoFault s k) :
    exec (.step target) s = .next (returning (stepReply s ⟨false, false⟩ k) (passScanline^[k] s)) := by
  rw [exec_running hs]
  congr 1
  show stepLoop target (iterations target s) ⟨false, false⟩ s = _
  rw [hk]
  rcases stepLoop_cases hk.symm ⟨false, false⟩ with ⟨-, hloop⟩ | ⟨j, hj, r, -, hr, -⟩
  · exact hloop
  · exact absurd ((hrun j hj).symm.trans hr) (by simp)

/-- Where no passed scanline holds a tall sprite, none faults. -/
theorem noFault_of_noTallSprite {s : State} {k : Nat} (hs : s.fault = none)
    (h : ∀ j < k, (passScanline^[j] s).scanline < 240 → Claims.noTallSpriteOn s (passScanline^[j] s).scanline) :
    NoFault s k := by
  induction k with
  | zero => exact noFault_zero s
  | succ k ih =>
    have hrun : NoFault s k := ih fun j hj => h j (by omega)
    intro j hj
    rcases Nat.lt_succ_iff_lt_or_eq.mp hj with hlt | rfl
    · exact hrun j hlt
    · exact renderCurrent_running (iterate_fault hs hrun) fun hvisible =>
        noTallSpriteOn_of_kept (kept_iterate s j) (h j hj hvisible)

end Sys2Proof.Machine
end

section
/-! SUPPORT. The statements on STEP (spec/44_timing.md): one scanline, a whole STEP, one frame, the split of a STEP, its
frame, and its 8×16 fault. -/

namespace Sys2Proof.Machine

/-! ### The low status bits -/

/-- The scanlines a STEP passes leave the low five status bits (R38). -/
theorem getLsbD_status_iterate_low (s : State) (k : Nat) {b : Nat} (hb : b < 5) :
    (passScanline^[k] s).status.getLsbD b = s.status.getLsbD b := by
  induction k with
  | zero => rfl
  | succ k ih =>
    rw [Function.iterate_succ_apply', getLsbD_status_passScanline _ (by omega), if_neg (by omega), if_neg (by omega),
      getLsbD_status_renderCurrent, decide_eq_false (p := 5 = b) (by omega), decide_eq_false (p := 6 = b) (by omega),
      ih]
    simp

/-! ### STEPs of no or one scanline -/

/-- Settles O39: no iteration is due. -/
theorem stepBelowTheBoundaryDoesNothing : Obligations.StepBelowTheBoundaryDoesNothing := by
  intro s target hs htarget
  have hk : iterations target s = 0 := iterations_eq (.inr rfl) (by omega)
  rw [exec_step_noFault hs hk (noFault_zero s)]
  simp [stepReply, returning]

/-- A STEP with one quantum to run, on a scanline that does not fault. -/
theorem exec_step_one {s : State} {target : Cycles} (hs : s.fault = none) (hrun : (renderCurrent s).fault = none)
    (h1 : s.cy.toNat + s.params.q ≤ target.toNat) (h2 : target.toNat < s.cy.toNat + 2 * s.params.q) :
    exec (.step target) s = .next (returning (.stepped (decide (s.scanline + 1 = s.params.n))
      (decide (s.scanline + 1 = s.params.v) && s.ctrl.getLsbD 7)) (passScanline s)) := by
  have hk : iterations target s = 1 := iterations_eq (.inl (by omega)) (by omega)
  rw [exec_step_noFault hs hk (noFault_succ.mpr ⟨hrun, noFault_zero _⟩)]
  simp [stepReply, ctrlNmie]

/-- The end of a STEP that passed one scanline, by its fields. -/
theorem returning_passScanline_eq {s : State} (hs : s.fault = none) (hrun : (renderCurrent s).fault = none) (v : Reply) :
    returning v (passScanline s) = { s with
      status := (passScanline s).status
      frame := (passScanline s).frame
      scanline := nextScanline s.params s.scanline
      cy := (passScanline s).cy
      reply := v } := by
  refine (congrArg (returning v) (eq_of_kept (kept_passScanline s))).trans ?_
  rw [passScanline_scanline, passScanline_fault, hrun, hs]
  rfl

/-- Settles O40: nothing is rendered, so the iteration is the advance. -/
theorem oneBlankScanline : Obligations.OneBlankScanline := by
  intro s target hs hblank _ h1 h2
  have hrender := renderCurrent_blank hblank
  have hpass : passScanline s = advanceScanline s := by rw [passScanline, hrender]
  have hrun : (renderCurrent s).fault = none := by rw [hrender, hs]
  have hframe : (passScanline s).frame = s.frame := by rw [hpass, advanceScanline_frame]
  refine ⟨_, exec_step_one hs hrun h1 h2, ?keeps, passScanline_cy h1, ?vbl, ?s0hit, fun b hb => ?rest⟩
  case keeps => exact (returning_passScanline_eq hs hrun _).trans (by rw [hframe]; rfl)
  case vbl => exact (getLsbD_status_passScanline s (by decide)).trans (by simp)
  case s0hit => exact (getLsbD_status_passScanline s (by decide)).trans (by simp [hrender])
  case rest =>
    refine (getLsbD_status_passScanline s (by omega)).trans ?_
    rw [if_neg (by omega), if_neg (by omega), hrender]

/-- The bytes of a row are the three bytes of each column's pixel, in column order (R218). -/
theorem columnsFrom_bytes {s : State} {list xs : List Nat} {y i : Nat} (hi : i < xs.length)
    (h : ∀ x ∈ xs, ∃ p, pixel s list x y = .ok p) (u : Byte) :
    ∃ p, pixel s list xs[i] y = .ok p ∧ (columnsFrom s list y xs).bytes.getD (3 * i) u = p.rgb.r ∧
      (columnsFrom s list y xs).bytes.getD (3 * i + 1) u = p.rgb.g ∧
      (columnsFrom s list y xs).bytes.getD (3 * i + 2) u = p.rgb.b := by
  induction xs generalizing i with
  | nil => exact absurd hi (Nat.not_lt_zero _)
  | cons x rest ih =>
    obtain ⟨⟨p, hp⟩, hrest⟩ := List.forall_mem_cons.mp h
    cases i with
    | zero => exact ⟨p, hp, by simp [columnsFrom, hp]⟩
    | succ i =>
      obtain ⟨p', hp', hbytes⟩ := ih (Nat.lt_of_succ_lt_succ hi) hrest
      exact ⟨p', hp', by simpa [columnsFrom, hp, Nat.mul_add] using hbytes⟩

/-- A row without tall sprites in the frame buffer: each column's pixel in three bytes, every byte outside the row as
before. -/
theorem frame_renderScanline {s : State} {y : Nat} (h : Claims.noTallSpriteOn s y) :
    (∀ x < 256, ∃ p, pixel s (Claims.selected s y) x y = .ok p ∧ Claims.frameAt (renderScanline y s) x y 0 = p.rgb.r ∧
      Claims.frameAt (renderScanline y s) x y 1 = p.rgb.g ∧ Claims.frameAt (renderScanline y s) x y 2 = p.rgb.b) ∧
    ∀ j, j < 768 * y ∨ 768 * (y + 1) ≤ j → (renderScanline y s).frame.read j = s.frame.read j := by
  obtain ⟨-, hframe, -⟩ := renderScanline_fields y s
  have hrow : (columnsFrom s (Claims.selected s y) y (List.range 256)).fault = none :=
    (columnsFrom_fault ..).trans (rowFault_eq_none h)
  have hlength := columnsFrom_length s _ y _ hrow
  rw [List.length_range] at hlength
  rw [evaluate_eq] at hframe
  constructor
  · intro x hx
    have hget (c : Nat) (hc : c < 3) : Claims.frameAt (renderScanline y s) x y c =
        (columnsFrom s (Claims.selected s y) y (List.range 256)).bytes.getD (3 * x + c) (unlisted 8) := by
      rw [Claims.frameAt, hframe, Memory.read_splice, hlength, frameIndex, if_pos (by omega)]
      congr 1
      omega
    obtain ⟨p, hp, hr, hg, hb⟩ := columnsFrom_bytes (s := s) (y := y) (list := Claims.selected s y)
      (xs := List.range 256) (i := x) (by simpa using hx) (fun x _ => pixel_eq_ok (tallSlot_eq_none h x)) (unlisted 8)
    rw [List.getElem_range] at hp
    exact ⟨p, hp, (hget 0 (by decide)).trans hr, (hget 1 (by decide)).trans hg, (hget 2 (by decide)).trans hb⟩
  · intro j hj
    rw [hframe, Memory.read_splice, hlength, frameIndex, if_neg (by omega)]

/-- Settles O41: the row's bytes are spliced in at their place, the two flags of the row are raised, and the advance may
enter vblank but never ends the frame. -/
theorem oneVisibleScanline : Obligations.OneVisibleScanline := by
  intro s target hs hvisible hsmall h1 h2
  have hn : s.scanline + 1 ≠ s.params.n := by have := s.params.v_low; have := s.params.v_high; omega
  have hrun := renderCurrent_running hs fun _ => hsmall
  have hrender := renderCurrent_visible hvisible
  have hframe : (passScanline s).frame = (renderScanline s.scanline s).frame := by
    rw [passScanline, advanceScanline_frame, hrender]
  obtain ⟨hpixels, houtside⟩ := frame_renderScanline hsmall
  have hexec := exec_step_one hs hrun h1 h2
  rw [decide_eq_false hn] at hexec
  have hbit {b : Nat} (hb : b < 8) := getLsbD_status_passScanline s hb
  simp only [getLsbD_status_renderCurrent, decide_eq_true hvisible, Bool.true_and, hn, if_false] at hbit
  refine ⟨_, hexec, ?keeps, passScanline_cy h1, fun x hx => ?pixels, fun j hj => ?outside, ?vbl, ?s0hit, ?ovf,
    fun b hb => ?rest⟩
  case keeps =>
    refine (returning_passScanline_eq hs hrun _).trans ?_
    rw [nextScanline, if_neg hn]
    rfl
  case pixels =>
    obtain ⟨p, hp, hrgb⟩ := hpixels x hx
    simp only [Claims.frameAt, returning_frame, hframe]
    exact ⟨p, hp, hrgb⟩
  case outside => exact (congrArg (Memory.read · j) hframe).trans (houtside j hj)
  case vbl => exact (hbit (b := 7) (by decide)).trans (by simp)
  case s0hit =>
    have hzero := columnsFrom_zeroHit (s := s) (xs := List.range 256) (y := s.scanline)
      (list := Claims.selected s s.scanline)
      (hit := fun x => ∃ p, pixel s (Claims.selected s s.scanline) x s.scanline = .ok p ∧ p.zeroHit = true)
      fun x _ => by
        obtain ⟨p, hp⟩ := pixel_eq_ok (tallSlot_eq_none hsmall x)
        exact ⟨p, hp, by simp [hp]⟩
    simp only [List.mem_range] at hzero
    rw [returning_status, hbit (by decide), ← hzero]
    by_cases hv : s.scanline + 1 = s.params.v <;> simp [hv]
  case ovf => exact (hbit (b := 5) (by decide)).trans (by simp)
  case rest => exact getLsbD_status_iterate_low s 1 hb

/-! ### A whole STEP -/

/-- The scanline lies below N, and VBL is set exactly from V on (R49, R249). -/
def VblMatches (s : State) : Prop := s.scanline < s.params.n ∧ s.status.getLsbD 7 = decide (s.params.v ≤ s.scanline)

theorem vblMatches_passScanline {s : State} (h : VblMatches s) : VblMatches (passScanline s) := by
  obtain ⟨hlt, hvbl⟩ := h
  have hv := s.params.v_low
  have hvn := s.params.v_high
  unfold VblMatches
  rw [getLsbD_status_passScanline s (by decide), passScanline_scanline, params_of_kept (kept_passScanline s), nextScanline,
    hvbl, if_pos rfl]
  split_ifs <;> simp <;> omega

theorem vblMatches_iterate {s : State} (h : VblMatches s) (k : Nat) : VblMatches (passScanline^[k] s) := by
  induction k with
  | zero => exact h
  | succ k ih =>
    rw [Function.iterate_succ_apply']
    exact vblMatches_passScanline ih

/-- Settles O42: the k iterations go round the scanlines, each keeps VBL in step with the scanline, and the result counts
the passages of V and N. -/
theorem stepArrivesAtItsTarget : Obligations.StepArrivesAtItsTarget := by
  intro s target k hs hlt hsmall hvbl hk
  have hk : iterations target s = k := hk.symm
  have hscanline (j : Nat) : (passScanline^[j] s).scanline = (s.scanline + j) % s.params.n := by
    rw [iterate_scanline, nextScanline_iterate s.params hlt]
  have hrun : NoFault s k := noFault_of_noTallSprite hs fun j hj => by
    rw [hscanline]
    exact hsmall j hj
  have hcy := iterate_cy hk.ge
  refine ⟨_, exec_step_noFault hs hk hrun, iterate_fault hs hrun, hcy, ?target, hscanline k, ?vbl, ?reply⟩
  case target =>
    have hnot : ¬ k < iterations target s := hk ▸ Nat.lt_irrefl k
    rw [lt_iterations_iff, Nat.add_one_mul] at hnot
    rw [returning_cy, hcy]
    omega
  case vbl =>
    have hmatch := (vblMatches_iterate ⟨hlt, hvbl⟩ k).2
    rwa [params_of_kept (kept_iterate s k)] at hmatch
  case reply =>
    rw [returning_reply, stepReply, reaches_n _ hlt, reaches_v _ hlt, Bool.and_comm]
    rfl

/-! ### Splitting a STEP -/

theorem noFault_add {s : State} {j k : Nat} : NoFault s (j + k) ↔ NoFault s j ∧ NoFault (passScanline^[j] s) k := by
  simp only [NoFault, ← Function.iterate_add_apply]
  constructor
  · exact fun h => ⟨fun i hi => h i (by omega), fun i hi => h (i + j) (by omega)⟩
  · rintro ⟨hj, hk⟩ i hi
    by_cases hij : i < j
    · exact hj i hij
    · have := hk (i - j) (by omega)
      rwa [show i - j + j = i by omega] at this

theorem samePixelInputs_returning (v : Reply) (s : State) : SamePixelInputs (returning v s) s :=
  ⟨rfl, rfl, rfl, rfl, rfl, rfl, rfl, rfl, rfl, rfl, rfl, rfl⟩

/-- No iteration reads the reply: one that does not fault carries it along. -/
theorem renderCurrent_returning {s : State} (v : Reply) (h : (renderCurrent s).fault = none) :
    renderCurrent (returning v s) = returning v (renderCurrent s) := by
  rcases Nat.lt_or_ge s.scanline 240 with hvisible | hblank
  · rw [renderCurrent_visible hvisible, renderScanline_fault, Option.or_eq_none_iff] at h
    have hrow : (columnsFrom s (evaluate s s.scanline).slots s.scanline (List.range Config.columns)).fault = none := by
      rw [evaluate_eq]
      exact (columnsFrom_fault ..).trans h.1
    have hev : evaluate (returning v s) s.scanline = evaluate s s.scanline := by
      rw [evaluate_eq, evaluate_eq]
      rfl
    rw [renderCurrent_visible hvisible, renderCurrent_visible (s := returning v s) hvisible, returning_scanline]
    simp only [renderScanline, hev, (samePixelInputs_returning v s).columnsFrom_eq, hrow]
    rfl
  · rw [renderCurrent_blank hblank, renderCurrent_blank (s := returning v s) hblank]

theorem advanceScanline_returning (v : Reply) (s : State) :
    advanceScanline (returning v s) = returning v (advanceScanline s) := by
  unfold advanceScanline returning
  dsimp only
  split
  · rfl
  · split <;> rfl

theorem passScanline_returning {s : State} (v : Reply) (h : (renderCurrent s).fault = none) :
    passScanline (returning v s) = returning v (passScanline s) := by
  rw [passScanline, renderCurrent_returning v h, advanceScanline_returning, passScanline]

theorem iterate_returning {s : State} (v : Reply) {k : Nat} (h : NoFault s k) :
    passScanline^[k] (returning v s) = returning v (passScanline^[k] s) := by
  induction k with
  | zero => rfl
  | succ k ih =>
    have hk : NoFault s k := fun j hj => h j (by omega)
    rw [Function.iterate_succ_apply', ih hk, passScanline_returning v (h k (Nat.lt_succ_self k)),
      Function.iterate_succ_apply']

theorem noFault_returning {s : State} (v : Reply) {k : Nat} (h : NoFault s k) : NoFault (returning v s) k := by
  intro j hj
  rw [iterate_returning v fun i hi => h i (by omega), renderCurrent_returning v (h j hj), returning_fault, h j hj]

/-- After the iterations up to one target, those that are left up to a later one. -/
theorem iterations_split {t1 t2 : Cycles} {s : State} (h : t1.toNat ≤ t2.toNat) :
    iterations t2 s = iterations t1 s + iterations t2 (passScanline^[iterations t1 s] s) := by
  have hq := s.params.q_pos
  have hcy := iterate_cy (le_refl (iterations t1 s))
  have hparams := params_of_kept (kept_iterate s (iterations t1 s))
  have hle : iterations t1 s * s.params.q ≤ t1.toNat - s.cy.toNat := Nat.div_mul_le_self _ _
  rw [iterations, iterations.eq_1 t2 (passScanline^[_] s), hcy, hparams, Nat.add_comm (iterations t1 s) (_ / _),
    ← Nat.add_mul_div_right _ _ hq]
  congr 1
  omega

/-- A STEP that leaves the block running passed all its scanlines. -/
theorem exec_step_of_running {target : Cycles} {s t : State} (h : exec (.step target) s = .next t) (ht : t.fault = none) :
    s.fault = none ∧ NoFault s (iterations target s) ∧
      t = returning (stepReply s ⟨false, false⟩ (iterations target s)) (passScanline^[iterations target s] s) := by
  obtain ⟨hs, ⟨hrun, hend⟩ | ⟨j, -, r, -, hr, rfl⟩⟩ := exec_step_cases h
  · exact ⟨hs, hrun, hend⟩
  · exact absurd (hr.symm.trans ht) (by simp)

/-- Settles O44: the first STEP ends in the state its iterations reach with a reply, which the second STEP's iterations
carry along unread; the passages of V and N over all scanlines are those over the two parts. -/
theorem splittingAStepLeavesTheSameState : Obligations.SplittingAStepLeavesTheSameState := by
  intro s u w t1 t2 hle hu hufault hw hwfault
  obtain ⟨hs, hrun1, hu⟩ := exec_step_of_running hu hufault
  obtain ⟨-, hrun2, hw⟩ := exec_step_of_running hw hwfault
  set k1 := iterations t1 s
  set k2 := iterations t2 u
  have hp : passScanline^[k1] s = returning (passScanline^[k1] s).reply u := by rw [hu]; rfl
  have hk : iterations t2 s = k1 + k2 := by
    rw [iterations_split hle, hp]
    rfl
  have hrun : NoFault s (k1 + k2) := noFault_add.mpr ⟨hrun1, hp ▸ noFault_returning _ hrun2⟩
  have hstate : passScanline^[k1 + k2] s = returning (passScanline^[k1] s).reply (passScanline^[k2] u) := by
    rw [Nat.add_comm, Function.iterate_add_apply, hp, iterate_returning _ hrun2]
    rfl
  have hparams : u.params = s.params := by rw [hu]; exact params_of_kept (kept_iterate s k1)
  have hctrl : ctrlNmie u = ctrlNmie s := by rw [hu]; exact congrArg (·.getLsbD 7) (ctrl_of_kept (kept_iterate s k1))
  have hscanline : u.scanline = (nextScanline s.params)^[k1] s.scanline := by rw [hu]; exact iterate_scanline s k1
  refine ⟨_, _, _, _, _, exec_step_noFault hs hk hrun, congrArg State.reply hu, congrArg State.reply hw, ?_⟩
  rw [hstate, hw]
  simp only [stepReply, reaches_add, hparams, hctrl, hscanline, Bool.false_or, Bool.and_or_distrib_right]
  rfl

/-! ### One frame -/

/-- The scanline that enters V sets VBL and clears S0HIT (R244). -/
theorem vblank_entered {s : State} {k : Nat} (h : (passScanline^[k] s).scanline + 1 = s.params.v) :
    (passScanline^[k + 1] s).status.getLsbD 7 = true ∧ (passScanline^[k + 1] s).status.getLsbD 6 = false := by
  have hparams := params_of_kept (kept_iterate s k)
  rw [Function.iterate_succ_apply', getLsbD_status_passScanline _ (by decide), getLsbD_status_passScanline _ (by decide),
    hparams]
  exact ⟨by rw [if_pos rfl, if_pos h], by rw [if_neg (by decide), if_pos ⟨rfl, h⟩]⟩

/-- A STEP from the top of a frame to its V-th boundary ends as vblank is entered. -/
theorem exec_step_to_vblank {s : State} {target : Cycles} (hs : s.fault = none) (htop : s.scanline = 0)
    (hsmall : ∀ y < 240, Claims.noTallSpriteOn s y) (htarget : target.toNat = s.cy.toNat + s.params.v * s.params.q) :
    ∃ t, exec (.step target) s = .next t ∧ t.fault = none ∧ kept t = kept s ∧ t.cy.toNat = target.toNat ∧
      t.scanline = s.params.v ∧ t.reply = .stepped false (s.ctrl.getLsbD 7) ∧ t.status.getLsbD 7 = true ∧
      t.status.getLsbD 6 = false := by
  have hv := s.params.v_low
  have hvn := s.params.v_high
  have hq := s.params.q_pos
  have hlt : 0 < s.params.n := by omega
  have hscanline (j : Nat) : (passScanline^[j] s).scanline = j % s.params.n := by
    rw [iterate_scanline, htop, nextScanline_iterate s.params hlt, Nat.zero_add]
  have hk : iterations target s = s.params.v := iterations_eq (.inl htarget.ge) (by rw [htarget, Nat.add_one_mul]; omega)
  have hrun : NoFault s s.params.v := noFault_of_noTallSprite hs fun j _ => hsmall _
  have hreply : stepReply s ⟨false, false⟩ s.params.v = .stepped false (s.ctrl.getLsbD 7) := by
    rw [stepReply, htop, reaches_n _ hlt, reaches_v _ hlt, if_pos (by omega), decide_eq_false (by omega),
      decide_eq_true (by omega), Bool.true_and]
    rfl
  have hlast : (passScanline^[s.params.v - 1] s).scanline + 1 = s.params.v := by
    rw [hscanline, Nat.mod_eq_of_lt (by omega)]
    omega
  obtain ⟨hvbl, hs0hit⟩ := vblank_entered hlast
  rw [Nat.sub_add_cancel (by omega)] at hvbl hs0hit
  exact ⟨_, exec_step_noFault hs hk hrun, iterate_fault hs hrun, kept_iterate s _, (iterate_cy hk.ge).trans htarget.symm,
    (hscanline _).trans (Nat.mod_eq_of_lt hvn), hreply, hvbl, hs0hit⟩

/-- A STEP from V to the N-th boundary completes the frame. -/
theorem exec_step_to_frame_end {s : State} {target : Cycles} (hs : s.fault = none) (hv : s.scanline = s.params.v)
    (hvbl : s.status.getLsbD 7 = true) (hsmall : ∀ y < 240, Claims.noTallSpriteOn s y)
    (htarget : target.toNat = s.cy.toNat + (s.params.n - s.params.v) * s.params.q) :
    ∃ t, exec (.step target) s = .next t ∧ t.fault = none ∧ t.cy = target ∧ t.scanline = 0 ∧
      t.reply = .stepped true false ∧ t.status.getLsbD 7 = false := by
  have hlow := s.params.v_low
  have hvn := s.params.v_high
  have hk : s.params.n - s.params.v = (target.toNat - s.cy.toNat) / s.params.q := by
    rw [htarget, Nat.add_sub_cancel_left, Nat.mul_div_cancel _ s.params.q_pos]
  obtain ⟨t, ht, htfault, htcy, -, htscanline, htvbl, htreply⟩ :=
    stepArrivesAtItsTarget s target _ hs (hv ▸ hvn) (fun j _ hj => hsmall _ hj) (by rw [hvbl, hv]; simp) hk
  have hend : s.params.v + (s.params.n - s.params.v) = s.params.n := by omega
  rw [hv, hend] at htreply htscanline
  rw [Nat.mod_self] at htscanline
  refine ⟨t, ht, htfault, BitVec.eq_of_toNat_eq (htcy.trans htarget.symm), htscanline, ?_, ?_⟩
  · rw [htreply, if_neg (Nat.lt_irrefl _), decide_eq_true le_rfl, decide_eq_false (by omega), Bool.and_false]
  · rw [htvbl, decide_eq_false (by omega)]

/-- Settles O43: a STEP to V, a whole STEP from there to N, and the STEP over both, which is split at V. -/
theorem oneWholeFrame : Obligations.OneWholeFrame := by
  intro s tv tn hs htop hsmall htv htn
  have hle : s.params.v * s.params.q ≤ s.params.n * s.params.q := Nat.mul_le_mul_right _ s.params.v_high.le
  obtain ⟨t, ht, htfault, hkept, htcy, htscanline, htreply, htvbl, hts0hit⟩ := exec_step_to_vblank hs htop hsmall htv
  have hparams := params_of_kept hkept
  obtain ⟨u, hu, hufault, hucy, huscanline, hureply, huvbl⟩ := exec_step_to_frame_end (target := tn) htfault
    (htscanline.trans (hparams ▸ rfl)) htvbl (fun y hy => noTallSpriteOn_of_kept hkept (hsmall y hy))
    (by rw [hparams, htcy, htv, htn, Nat.sub_mul]; omega)
  obtain ⟨w, f1, n1, f2, n2, hw, h1, h2, hwu⟩ :=
    splittingAStepLeavesTheSameState s t u tv tn (by omega) ht htfault hu hufault
  obtain ⟨rfl, rfl⟩ := Reply.stepped.inj (htreply.symm.trans h1)
  obtain ⟨rfl, rfl⟩ := Reply.stepped.inj (hureply.symm.trans h2)
  refine ⟨t, u, w, ht, htreply, htscanline, htvbl, hts0hit, hu, hureply, huscanline, huvbl, hucy, hw, ?_, ?_⟩
  · rw [hwu]
    simp
  · rw [hwu]

/-! ### What a STEP writes, and its fault -/

/-- A scanline that faults leaves the block halted in a STEP. -/
theorem stepFaulted_of_renderCurrent {s : State} {r : FaultRecord} (hs : s.fault = none)
    (h : (renderCurrent s).fault = some r) : stepFaulted (renderCurrent s) = true := by
  obtain ⟨-, hrow, -⟩ := renderCurrent_faulted hs h
  obtain ⟨x, -, slot, rfl, -⟩ := rowFault_eq_some_iff.mp hrow
  rw [stepFaulted, h]

/-- A STEP that does not halt the block passed all its scanlines. -/
theorem exec_step_of_not_stepFaulted {target : Cycles} {s t : State} (h : exec (.step target) s = .next t)
    (ht : stepFaulted t = false) : s.fault = none ∧ NoFault s (iterations target s) ∧
      t = returning (stepReply s ⟨false, false⟩ (iterations target s)) (passScanline^[iterations target s] s) := by
  obtain ⟨hs, ⟨hrun, hend⟩ | ⟨j, -, r, hrun, hr, rfl⟩⟩ := exec_step_cases h
  · exact ⟨hs, hrun, hend⟩
  · exact absurd ((stepFaulted_of_renderCurrent (iterate_fault hs hrun) hr).symm.trans ht) (by simp)

/-- The scanlines a STEP passes never clear OVF (R39). -/
theorem ovf_iterate {s : State} (k : Nat) (h : s.status.getLsbD 5 = true) :
    (passScanline^[k] s).status.getLsbD 5 = true := by
  induction k with
  | zero => exact h
  | succ k ih =>
    rw [Function.iterate_succ_apply', getLsbD_status_passScanline _ (by decide), if_neg (by decide), if_neg (by simp),
      getLsbD_status_renderCurrent, ih, Bool.true_or]

/-- Settles O45: the iterations and the reply keep every other element. -/
theorem stepKeepsRegistersAndStores : Obligations.StepKeepsRegistersAndStores := by
  intro s t target h ht
  obtain ⟨hs, hrun, hend⟩ := exec_step_of_not_stepFaulted h ht
  have hkept : kept t = kept s := by rw [hend]; exact kept_iterate s _
  have hfault : t.fault = s.fault := by rw [hend, hs]; exact iterate_fault hs hrun
  refine ⟨(eq_of_kept hkept).trans (by rw [hfault]), fun b hb => ?_⟩
  rw [hend]
  exact getLsbD_status_iterate_low s _ hb

/-- Settles O46: the first scanline's row faults at that column and slot, which ends the STEP. -/
theorem tallSpriteHaltsAtTheFirstCoveredColumn : Obligations.TallSpriteHaltsAtTheFirstCoveredColumn := by
  intro s target x slot hs hvisible hsize hspe hdue hx hslot hlow
  have hrow : rowFault s s.scanline = some (.sprite8x16 s.scanline x slot) := by
    refine rowFault_eq_some_iff.mpr ⟨x, hx, slot, rfl, tallSlot_eq_some_iff.mpr ⟨hsize, hspe, hslot⟩, fun x' hx' => ?_⟩
    rw [tallSlot, if_pos ⟨hsize, hspe⟩, List.find?_eq_none]
    exact fun k hk => by simp [hlow x' hx' k hk]
  have hfault : (renderCurrent s).fault = some (.sprite8x16 s.scanline x slot) := by
    rw [renderCurrent_visible hvisible, renderScanline_fault, hrow]
    rfl
  obtain ⟨n, hn⟩ := Nat.exists_eq_succ_of_ne_zero (iterations_pos.mpr hdue).ne'
  refine ⟨renderCurrent s, ?_, hfault, (renderCurrent_faulted hs hfault).2.2⟩
  rw [exec_running hs, effect, hn, stepLoop_fault n hdue hfault]

end Sys2Proof.Machine
end

section
/-! SUPPORT. Statements over every transaction: what each writes, where faults and NMI requests come from, that a running
block performs each and a halted one none, and the invariant of the block. -/

namespace Sys2Proof.Machine

/-! ### Frames of the transactions with more than one outcome -/

@[simp] theorem storeScroll_fault (d : Byte) (s : State) : (storeScroll d s).fault = s.fault := by rw [storeScroll_frame]

@[simp] theorem storeAddr_fault (d : Byte) (s : State) : (storeAddr d s).fault = s.fault := by rw [storeAddr_frame]

theorem storeData_frame (d : Byte) (s : State) : ∃ nametable palette addr fault reply, storeData d s = { s with
    nametable := nametable, palette := palette, addr := addr, fault := fault, reply := reply } := by
  rcases storeData_cases d s with ⟨-, h⟩ | ⟨-, t, ht, h⟩
  · exact ⟨_, _, _, _, _, h⟩
  · rcases vramStore_cases ht with ⟨-, rfl⟩ | ⟨-, -, rfl⟩ | ⟨-, -, rfl⟩ <;> exact ⟨_, _, _, _, _, h⟩

theorem loadData_frame (s : State) : ∃ dataBuf addr fault reply, loadData s = { s with
    dataBuf := dataBuf, addr := addr, fault := fault, reply := reply } := by
  rcases loadData_cases s with ⟨-, h⟩ | ⟨v, -, -, h⟩ | ⟨v, -, -, -, h⟩ <;> exact ⟨_, _, _, _, h⟩

theorem kept_stepLoop {target : Cycles} (s : State) :
    kept (stepLoop target (iterations target s) ⟨false, false⟩ s) = kept s := by
  rcases stepLoop_cases rfl ⟨false, false⟩ with ⟨-, h⟩ | ⟨j, -, r, -, -, h⟩
  · rw [h]
    exact kept_iterate s _
  · rw [h, kept_renderCurrent]
    exact kept_iterate s j

/-- Settles O33: each transaction's effect by its frame, which names what it writes. -/
theorem writersOfEachElement : Obligations.WritersOfEachElement := by
  intro i s t h _
  obtain ⟨-, rfl⟩ := exec_next h
  cases i with
  | wScroll d =>
    rw [effect, storeScroll_frame]
    simp
  | wAddr d =>
    rw [effect, storeAddr_frame]
    simp
  | wData d =>
    obtain ⟨_, _, _, _, _, hframe⟩ := storeData_frame d s
    simp [effect, hframe]
  | rData =>
    obtain ⟨_, _, _, _, hframe⟩ := loadData_frame s
    simp [effect, hframe]
  | step target =>
    have hframe := eq_of_kept (kept_stepLoop (target := target) s)
    rw [effect, hframe]
    simp
  | _ => simp [effect]

/-- Settles O34: every transaction is behind the one check of R266. -/
theorem haltedBlockHasNoStep : Obligations.HaltedBlockHasNoStep := fun _ _ h i => exec_halted h i

/-- Settles O35: the effect is the next state. -/
theorem runningBlockPerformsEveryTransaction : Obligations.RunningBlockPerformsEveryTransaction :=
  fun _ i h => ⟨_, exec_running h i⟩

/-! ### Faults and NMI requests -/

/-- From a scanline that is not below N, which no run reaches, the scanline only grows. -/
theorem nextScanline_iterate_beyond (p : Params) {y : Nat} (h : p.n ≤ y) (k : Nat) : (nextScanline p)^[k] y = y + k := by
  induction k with
  | zero => rfl
  | succ k ih => rw [Function.iterate_succ_apply', ih, nextScanline, if_neg (by omega), Nat.add_assoc]

/-- A scanline that a STEP meets as a visible one is found by its distance modulo N. -/
theorem iterate_scanline_visible {s : State} {j : Nat} (h : (passScanline^[j] s).scanline < 240) :
    (passScanline^[j] s).scanline = (s.scanline + j) % s.params.n := by
  have hv := s.params.v_low
  have hvn := s.params.v_high
  rw [iterate_scanline] at h ⊢
  rcases Nat.lt_or_ge s.scanline s.params.n with hlt | hge
  · exact nextScanline_iterate _ hlt j
  · rw [nextScanline_iterate_beyond _ hge] at h
    omega

/-- A fault of a STEP names the column and the slot of the row it stops on. -/
theorem exec_step_faulted {target : Cycles} {s t : State} {r : FaultRecord} (h : exec (.step target) s = .next t)
    (hr : t.fault = some r) :
    t.reply = .fault r ∧ ∃ j < iterations target s, (s.scanline + j) % s.params.n < 240 ∧
      rowFault s ((s.scanline + j) % s.params.n) = some r := by
  obtain ⟨hs, ⟨hrun, rfl⟩ | ⟨j, hj, r', hrun, hr', rfl⟩⟩ := exec_step_cases h
  · exact absurd ((iterate_fault hs hrun).symm.trans hr) (by simp)
  · obtain ⟨hvisible, hrow, hreply⟩ := renderCurrent_faulted (iterate_fault hs hrun) hr
    have hscanline := iterate_scanline_visible hvisible
    rw [hscanline] at hvisible hrow
    exact ⟨hreply, j, hj, hvisible, (rowFault_of_kept (kept_iterate s j) _).symm.trans hrow⟩

/-- Settles O36: the data accesses fault by their address, the OAM data load always, a STEP as a row of it does; every
other effect leaves the block running. -/
theorem faultsAreRaisedOnlyWhereNamed : Obligations.FaultsAreRaisedOnlyWhereNamed := by
  intro i s t r h hr
  have hs := (exec_next h).1
  cases i with
  | wData d =>
    obtain ⟨-, rfl⟩ := exec_next h
    rcases storeData_cases d s with ⟨hle, hfault⟩ | ⟨-, u, hu, hok⟩
    · rw [effect, hfault] at hr ⊢
      obtain rfl := Option.some.inj hr
      exact ⟨rfl, .inl ⟨d, rfl, BitVec.le_def.mp hle, rfl⟩⟩
    · rw [effect, hok, vramStore_frame hu] at hr
      exact absurd (hs.symm.trans hr) (by simp)
  | rData =>
    obtain ⟨-, rfl⟩ := exec_next h
    rcases loadData_cases s with ⟨hle, hfault⟩ | ⟨v, -, -, hok⟩ | ⟨v, -, -, -, hok⟩
    · rw [effect, hfault] at hr ⊢
      obtain rfl := Option.some.inj hr
      exact ⟨rfl, .inr (.inl ⟨rfl, BitVec.le_def.mp hle, rfl⟩)⟩
    all_goals
      rw [effect, hok] at hr
      exact absurd (hs.symm.trans hr) (by simp)
  | rOamdata =>
    obtain ⟨-, rfl⟩ := exec_next h
    obtain rfl := Option.some.inj hr
    exact ⟨rfl, .inr (.inr (.inl ⟨rfl, rfl⟩))⟩
  | step target =>
    obtain ⟨hreply, j, hj, hvisible, hrow⟩ := exec_step_faulted h hr
    obtain ⟨x, hx, slot, rfl, htall, hlow⟩ := rowFault_eq_some_iff.mp hrow
    obtain ⟨hsize, hspe, hfind⟩ := tallSlot_eq_some_iff.mp htall
    refine ⟨hreply, .inr (.inr (.inr ⟨target, _, x, slot, rfl, rfl, hvisible, hx,
      lt_of_mem_selected (List.mem_of_find?_eq_some hfind), hsize, hspe, ⟨j, hj, rfl⟩, hfind, fun x' hx' k hk => ?_⟩))⟩
    have hnone := hlow x' hx'
    rw [tallSlot, if_pos ⟨hsize, hspe⟩, List.find?_eq_none] at hnone
    exact Bool.eq_false_of_not_eq_true (hnone k hk)
  | _ =>
    obtain ⟨-, rfl⟩ := exec_next h
    simp [effect, hs] at hr

/-- Settles O37: no other effect replies a step result, and a STEP's result requests an NMI only with NMIE. -/
theorem onlyStepRequestsAnNmi : Obligations.OnlyStepRequestsAnNmi := by
  intro i s t fc h hreply
  cases i with
  | step target =>
    refine ⟨?_, target, rfl⟩
    obtain ⟨hs, ⟨-, rfl⟩ | ⟨j, -, r, hrun, hr, rfl⟩⟩ := exec_step_cases h
    · obtain ⟨-, hnmi⟩ := Reply.stepped.inj hreply
      rw [Bool.false_or, Bool.and_eq_true] at hnmi
      exact hnmi.2
    · obtain ⟨-, -, hfault⟩ := renderCurrent_faulted (iterate_fault hs hrun) hr
      exact absurd (hfault.symm.trans hreply) (by simp)
  | wData d =>
    obtain ⟨-, rfl⟩ := exec_next h
    rcases storeData_cases d s with ⟨-, hend⟩ | ⟨-, u, -, hend⟩ <;> simp [effect, hend] at hreply
  | rData =>
    obtain ⟨-, rfl⟩ := exec_next h
    rcases loadData_cases s with ⟨-, hend⟩ | ⟨v, -, -, hend⟩ | ⟨v, -, -, -, hend⟩ <;> simp [effect, hend] at hreply
  | _ =>
    obtain ⟨-, rfl⟩ := exec_next h
    simp [effect] at hreply

/-- Settles O38: only a STEP writes `status`, and its iterations never clear the flag. -/
theorem overflowIsNeverCleared : Obligations.OverflowIsNeverCleared := by
  intro i s t h ht hovf
  by_cases hstatus : t.status = s.status
  · rw [hstatus, hovf]
  · obtain ⟨-, -, hwriter, -⟩ := writersOfEachElement i s t h ht
    obtain ⟨target, rfl⟩ := hwriter (.inl hstatus)
    obtain ⟨-, -, hend⟩ := exec_step_of_not_stepFaulted h ht
    rw [hend]
    exact ovf_iterate _ hovf

/-! ### The invariant -/

/-- Settles O58: every register is 0 and every store empty; V is not 0. -/
theorem constructionMeetsTheInvariant : Obligations.ConstructionMeetsTheInvariant := by
  intro p
  have hv := p.v_low
  have hvn := p.v_high
  refine ⟨⟨Memory.nil_wf _, Memory.nil_wf _, Memory.nil_wf _, Memory.nil_wf _⟩,
    fun _ => ⟨⟨BitVec.zero_and, rfl, rfl, rfl⟩, ?_, ?_, ?_⟩⟩
  · show 0 < p.n
    omega
  · exact Nat.zero_mod _
  · have hbelow : ¬ p.v ≤ 0 := by omega
    simp [statusVbl, State.construct, hbelow]

/-- The low five bits of a byte are zero as R38 asks when each of them is. -/
theorem low_bits_zero_iff (st : Byte) : st &&& 0x1F#8 = 0#8 ↔ ∀ b < 5, st.getLsbD b = false := by
  revert st
  decide

/-- A rendered row lies in the frame buffer, so the store keeps its form. -/
theorem frame_wf_renderCurrent {s : State} (h : s.frame.wf Config.frameSize) :
    (renderCurrent s).frame.wf Config.frameSize := by
  rcases Nat.lt_or_ge s.scanline 240 with hvisible | hblank
  · obtain ⟨-, hframe, -⟩ := renderScanline_fields s.scanline s
    have hlength := columnsFrom_length_le s (evaluate s s.scanline).slots s.scanline (List.range 256)
    rw [List.length_range] at hlength
    rw [renderCurrent_visible hvisible, hframe]
    exact Memory.splice_wf _ _ _ _ h (by simp only [frameIndex, Config.frameSize]; omega)
  · rwa [renderCurrent_blank hblank]

theorem frame_wf_iterate {s : State} (h : s.frame.wf Config.frameSize) (k : Nat) :
    (passScanline^[k] s).frame.wf Config.frameSize := by
  induction k with
  | zero => exact h
  | succ k ih =>
    rw [Function.iterate_succ_apply', passScanline, advanceScanline_frame]
    exact frame_wf_renderCurrent ih

/-- A STEP writes no store but the frame buffer. -/
theorem memoryInv_of_kept {s t : State} (h : kept t = kept s) (hs : MemoryInv s)
    (hframe : t.frame.wf Config.frameSize) : MemoryInv t := by
  obtain ⟨hnametable, hpalette, hoam, -⟩ := hs
  rw [eq_of_kept h]
  exact ⟨hnametable, hpalette, hoam, hframe⟩

theorem registerInv_iterate {s : State} (h : RegisterInv s) (k : Nat) : RegisterInv (passScanline^[k] s) := by
  obtain ⟨hstatus, hx, hy, hcell⟩ := h
  have hlow : (passScanline^[k] s).status &&& 0x1F#8 = 0#8 := by
    rw [low_bits_zero_iff] at hstatus ⊢
    intro b hb
    rw [getLsbD_status_iterate_low s k hb, hstatus b hb]
  unfold RegisterInv
  rw [hlow, eq_of_kept (kept_iterate s k)]
  exact ⟨rfl, hx, hy, hcell⟩

theorem timingInv_iterate {target : Cycles} {s : State} (h : TimingInv s) {k : Nat} (hk : k ≤ iterations target s) :
    TimingInv (passScanline^[k] s) := by
  obtain ⟨hlt, hcy, hvbl⟩ := h
  obtain ⟨hlt', hvbl'⟩ := vblMatches_iterate ⟨hlt, hvbl⟩ k
  refine ⟨hlt', ?_, hvbl'⟩
  rw [iterate_cy hk, params_of_kept (kept_iterate s k), Nat.add_mul_mod_self_right, hcy]

/-- A STEP keeps the invariant; when it faults only the stores are claimed. -/
theorem inv_stepLoop {target : Cycles} {s : State} (hs : s.fault = none) (hm : MemoryInv s) (hr : RegisterInv s)
    (ht : TimingInv s) : Inv (stepLoop target (iterations target s) ⟨false, false⟩ s) := by
  have hframe : s.frame.wf Config.frameSize := hm.2.2.2
  rcases stepLoop_cases rfl ⟨false, false⟩ with ⟨-, hend⟩ | ⟨j, -, r, hrun, hfault, hend⟩ <;> rw [hend]
  · exact ⟨memoryInv_of_kept (kept_iterate s _) hm (frame_wf_iterate hframe _),
      fun _ => ⟨registerInv_iterate hr _, timingInv_iterate ht le_rfl⟩⟩
  · refine ⟨memoryInv_of_kept ((kept_renderCurrent _).trans (kept_iterate s j)) hm
      (frame_wf_renderCurrent (frame_wf_iterate hframe j)), fun hnot => ?_⟩
    exact absurd ((stepFaulted_of_renderCurrent (iterate_fault hs hrun) hfault).symm.trans hnot) (by simp)

/-- A data store writes a cell in range, and never palette cell 0x10. -/
theorem inv_storeData {s : State} (d : Byte) (hm : MemoryInv s) (hr : RegisterInv s) (ht : TimingInv s) :
    Inv (storeData d s) := by
  obtain ⟨hnametable, hpalette, hoam, hframe⟩ := hm
  obtain ⟨hstatus, hx, hy, hcell⟩ := hr
  rcases storeData_cases d s with ⟨-, hend⟩ | ⟨-, t, hstore, hend⟩ <;> rw [hend]
  · exact ⟨⟨hnametable, hpalette, hoam, hframe⟩, fun _ => ⟨⟨hstatus, hx, hy, hcell⟩, ht⟩⟩
  · rcases vramStore_cases hstore with ⟨-, rfl⟩ | ⟨-, -, rfl⟩ | ⟨-, -, rfl⟩
    · exact ⟨⟨hnametable, hpalette, hoam, hframe⟩, fun _ => ⟨⟨hstatus, hx, hy, hcell⟩, ht⟩⟩
    · exact ⟨⟨Memory.write_wf _ _ _ _ hnametable (nametableCell_lt _), hpalette, hoam, hframe⟩,
        fun _ => ⟨⟨hstatus, hx, hy, hcell⟩, ht⟩⟩
    · exact ⟨⟨hnametable, Memory.write_wf _ _ _ _ hpalette (paletteStoreCell_lt _), hoam, hframe⟩,
        fun _ => ⟨⟨hstatus, hx, hy, (Memory.read_write_other _ _ _ _ (paletteStoreCell_ne _).symm).trans hcell⟩, ht⟩⟩

/-- Every transaction of a running block keeps the invariant. -/
theorem inv_effect {s : State} (hs : s.fault = none) (h : Inv s) (i : Instr) : Inv (effect i s) := by
  obtain ⟨hm, hregisters⟩ := h
  obtain ⟨hr, ht⟩ := hregisters (by rw [stepFaulted, hs])
  cases i with
  | wData d => exact inv_storeData d hm hr ht
  | step target => exact inv_stepLoop hs hm hr ht
  | wScroll d =>
    obtain ⟨hstatus, hx, hy, hcell⟩ := hr
    cases hnext : s.scroll.next with
    | x =>
      rw [effect, storeScroll_x d hnext]
      exact ⟨hm, fun _ => ⟨⟨hstatus, rfl, hy, hcell⟩, ht⟩⟩
    | y =>
      rw [effect, storeScroll_y d hnext]
      exact ⟨hm, fun _ => ⟨⟨hstatus, hx, rfl, hcell⟩, ht⟩⟩
  | wAddr d =>
    rw [effect, storeAddr_frame]
    exact ⟨hm, fun _ => ⟨hr, ht⟩⟩
  | rData =>
    obtain ⟨_, _, _, _, hframe⟩ := loadData_frame s
    rw [effect, hframe]
    exact ⟨hm, fun _ => ⟨hr, ht⟩⟩
  | wOamdata d =>
    obtain ⟨hnametable, hpalette, hoam, hframe⟩ := hm
    exact ⟨⟨hnametable, hpalette, Memory.write_wf _ _ _ _ hoam s.oamAddr.isLt, hframe⟩, fun _ => ⟨hr, ht⟩⟩
  | oamW a d =>
    obtain ⟨hnametable, hpalette, hoam, hframe⟩ := hm
    exact ⟨⟨hnametable, hpalette, Memory.write_wf _ _ _ _ hoam a.isLt, hframe⟩, fun _ => ⟨hr, ht⟩⟩
  | _ => exact ⟨hm, fun _ => ⟨hr, ht⟩⟩

/-- Settles O59: a step is idle, or performs a transaction on the state with the host's inputs taken over, which the
invariant does not speak of. -/
theorem everyStepKeepsTheInvariant : Obligations.EveryStepKeepsTheInvariant := by
  intro s t hinv hstep
  cases hinbox : s.inbox with
  | nil =>
    rw [step_nil hinbox] at hstep
    exact Host.Outcome.next.inj hstep ▸ hinv
  | cons tr rest =>
    cases hdecode : decode tr.word tr.target with
    | error e =>
      rw [step_error hinbox hdecode] at hstep
      exact absurd hstep (by simp)
    | ok i =>
      rw [step_ok hinbox hdecode] at hstep
      obtain ⟨hs, rfl⟩ := exec_next hstep
      exact inv_effect hs hinv i

end Sys2Proof.Machine
end
